-- ==== Sys2Proof/Word.lean ====
section
/-!
DEFINITION. The number types of the Zenowa 4616 and their plainest arithmetic.
Counts, MI numbers and level codes are numbers (`Nat`, `Int`, `Rat`); what the manual treats as a set of
bits (row masks, keep sets, alert masks, sets of members) is a bit vector.
-/

namespace Sys2Proof

/-- One byte of a frame, of a proxy picture or of a chunk's payload. -/
abbrev Byte := BitVec 8

/-- A service S0 to S15 (conventions 3.6). -/
abbrev Svc := Fin 16

/-- A lane 0 to 15 of one kind of input (section 1.1 of the overview). -/
abbrev Lane := Fin 16

/-- A link port 0 to 2 (chapter 10). -/
abbrev PortNo := Fin 3

/-- An MI number (R1); comparisons are those of plain numbers (DESIGN CHOICE, log entry 11). -/
abbrev Mi := Nat

/-- Station time counts modulo 2^40 (R1). -/
def miModulus : Nat := 2 ^ 40

/-- The largest MI number. -/
def miMax : Nat := 2 ^ 40 - 1

/-- The largest value of a 32-bit count (R187, R68, R139, R20). -/
def max32 : Nat := 2 ^ 32 - 1

/-- The largest sequence of a compliance record (R113). -/
def maxSequence : Nat := 2 ^ 48 - 1

/-- The MI number that the period edge ending MI `m` carries (R1). -/
def miNext (m : Mi) : Mi := (m + 1) % miModulus

/-- The MI that the tick carrying `t` ends (R1). -/
def miPrev (t : Mi) : Mi := (t + miMax) % miModulus

/-- The start of the 20-MI span that holds MI `m` (conventions 3.1, R123). -/
def chunkStartOf (m : Mi) : Mi := 20 * (m / 20)

end Sys2Proof
end

