-- ==== Sys2Proof/Syntax.lean ====
section
/-!
DEFINITION. The commands of the Zenowa 4616: one constructor of `Instr` for each row of
spec/opcode_table.json, with the operands it carries.

Three kinds of command: an event at a pin or a lane; a request, as its owning block takes it from the port that
issued it; and the arrival at a block of a message that another block sent (section 1.3 of the overview). A message
under way is held in the state as the very command that its arrival will be.
-/

namespace Sys2Proof

/-! ### Names -/

/-- The class of a segment (R20, 2.2.1). -/
inductive SegClass where
  | programme | advert | promotion | junction | unscheduled
deriving DecidableEq, Repr

/-- Closure cause of a segment (2.2.1). -/
inductive Cause where
  | next | overrun | rollover | stop | reset | skipped
deriving DecidableEq, Repr

/-- Role of a link port (R175). -/
inductive Role where
  | playout | console | archive | observer
deriving DecidableEq, Repr

/-- Recording view and recording state (R33, R129). -/
inductive Recording where
  | recording | notRecording
deriving DecidableEq, Repr

/-- Attention mode of a port (R186). -/
inductive AttentionMode where
  | level | pulse
deriving DecidableEq, Repr

/-- The 19 kinds of notice, in the order of their kind codes (10.8.4). -/
inductive NoticeKind where
  | segmentClosed | violation | captionGap | captionStreamLost | captionStreamRestored
  | inputAbsent | inputRestored | scheduleOverrun | recordingGap | unarchivedOverwrite
  | backlogHigh | backlogNormal | archiveTimeout | holdTableFull | logLoss
  | referenceFailed | referenceRestored | counterHalf | counterFull
deriving DecidableEq, Repr

/-- The 12 per-service counters, in the order of their kind numbers 0 to 11 (10.8.4, 11.2.1). -/
inductive SvcCounter where
  | blocksBinned | blocksBelowGate | blocksAbsent | blocksOverRange | audioAbsentMi
  | captionPackets | captionMalformed | captionStreamLosses | chunksSealed | chunksNotRecorded
  | unarchivedOverwrites | segmentsFailed
deriving DecidableEq, Repr

/-- A counter of the counter bank (11.2.1): 12 for each service and five of the whole part. -/
inductive Counter where
  | service (k : SvcCounter) (s : Svc)
  | archiveTimeouts
  | logRecordsLost
  | framesDiscarded (p : PortNo)
deriving DecidableEq, Repr

/-! ### Data carried by events and messages -/

/-- The levels of a port's two role straps, as they are read (R175). -/
structure PortStraps where
  high : Bool
  low  : Bool
deriving DecidableEq, Repr

/-- One reading of the straps of the three ports (R175). -/
structure Straps where
  port0 : PortStraps
  port1 : PortStraps
  port2 : PortStraps
deriving DecidableEq, Repr

/-- Where a request came from and where its response goes: the port, the tag of its frame, and the number of
the pass by which the port handed it on (`none` for a request commanded directly, outside a port's queue). -/
structure Req where
  port : PortNo
  tag  : Byte
  pass : Option Nat
deriving DecidableEq, Repr

/-- A sample frame: the samples of channels 0 to 7, each 24-bit signed (1.2.1). -/
abbrev SampleFrame := List Int

/-- The judgment of an audio lane for one interval; a present one carries its frame count (R8). -/
inductive Judgment where
  | present (n : Nat)
  | absent
deriving DecidableEq, Repr

/-- A period edge as it reaches an input lane: the MI number it carries when it is an MI tick, and the
reference-held indication of the MI it ends (R1, R5, R8). -/
structure PeriodEdge where
  tick : Option Mi
  held : Bool
deriving DecidableEq, Repr

/-- A caption packet as carried (5.1): the kind and row bytes as in 10.8.5 (1 TEXT, 2 ERASE, 3 KEEPALIVE; row
255 is ALL); `duration = none` is UNTIL_ERASED. -/
structure CaptionPacket where
  stream   : Nat
  kind     : Nat
  row      : Nat
  count    : Nat
  duration : Option Nat
  chars    : List Byte
deriving DecidableEq, Repr

/-- A proxy frame: an opaque block, its frame position and its valid mark (1.4). -/
structure ProxyFrame where
  bytes    : List Byte
  position : Nat
  valid    : Bool
deriving DecidableEq, Repr

/-- "Segment opened" (R31). -/
structure SegOpened where
  inst    : Nat
  id      : Option Nat
  cls     : SegClass
  profile : Fin 8
  start   : Mi
deriving DecidableEq, Repr

/-- "Segment closed" (R31). -/
structure SegClosed where
  inst  : Nat
  start : Mi
  endMi : Mi
deriving DecidableEq, Repr

/-- An on-air message (R31, R122). -/
structure OnAirMsg where
  inst  : Nat
  id    : Option Nat
  start : Mi
deriving DecidableEq, Repr

/-- The MI result of the meter (R53). -/
structure MiResult where
  inst    : Nat
  mi      : Mi
  judged  : Bool
  audible : Bool
deriving DecidableEq, Repr

/-- The meter summary of one segment (R54); `none` is NOT_MEASURED for the integrated and peak codes and
"none" for the two maxima. -/
structure MeterSummary where
  mis           : Nat
  absentMis     : Nat
  positions     : Nat
  binned        : Nat
  belowGate     : Nat
  excluded      : Nat
  overRange     : Nat
  histogram     : Vector Nat 150
  integrated    : Option Int
  maxMomentary  : Option Int
  maxShortTerm  : Option Int
  peak          : Option Int
deriving DecidableEq, Repr

/-- The caption summary of one segment (R91). -/
structure CaptionSummary where
  judged     : Nat
  audible    : Nat
  covered    : Nat
  gapCount   : Nat
  longestGap : Nat
  streamLost : Nat
deriving DecidableEq, Repr

/-- The detail of a notice, as its kind gives (10.8.4). -/
inductive Detail where
  | nothing
  | sequence (n : Nat)
  | gap (id : Option Nat) (first : Mi)
  | captionStream (lane : Nat) (stream : Nat)
  | audioLane (lane : Nat)
  | segment (id : Option Nat)
  | priority (p : Nat)
  | lostChunk (slot : Nat) (start : Mi)
  | backlog (backlog threshold : Nat)
  | take (slot token : Nat)
  | counter (c : Counter)
deriving DecidableEq, Repr

/-- A notice as its block raises it: every field but the dropped-before count (R182). `mi = none` is
UNSET. -/
structure Notice where
  kind   : NoticeKind
  svc    : Option Svc
  mi     : Option Mi
  detail : Detail
deriving DecidableEq, Repr

/-! ### Arguments of requests, as carried -/

/-- An argument that may be given with a marker (10.8.1): a value, DEFAULT, NONE, or a marker byte that is none
of the three. -/
inductive Arg (α : Type) where
  | value (a : α)
  | dflt
  | absent
  | badMarker
deriving DecidableEq, Repr

/-- The five fields of a descriptor as STAGE carries them (R22): class and profile by their codes. -/
structure DescArgs where
  id      : Nat
  start   : Mi
  cls     : Nat
  profile : Nat
  planned : Nat
deriving DecidableEq, Repr

/-- The fields of CONFIGURE SERVICE as carried (R13, R14). A channel list entry is (channel, weight in
hundredths); sets are masks; yes-or-no fields are bytes. -/
structure ServiceArgs where
  audioLane      : Arg Nat
  channels       : Arg (List (Nat × Nat))
  captionLane    : Arg Nat
  captionStream  : Arg Nat
  rowMask        : Arg Nat
  speechFloor    : Arg Int
  streamTimeout  : Arg Nat
  proxyLane      : Arg Nat
  normalKeep     : Arg Nat
  reducedKeep    : Arg Nat
  recording      : Arg Nat
  priority       : Arg Nat
  overwrite      : Arg Nat
  profile        : Arg Nat
  unschedPlanned : Arg Nat
  holdGuard      : Arg Nat
deriving DecidableEq, Repr

/-- The nine fields of WRITE PROFILE as carried (R96). -/
structure ProfileArgs where
  target      : Arg Int
  tolerance   : Arg Nat
  shortTerm   : Arg Int
  peak        : Arg Int
  relative    : Arg Nat
  captions    : Arg Nat
  minCoverage : Arg Nat
  maxGap      : Arg Nat
  overrun     : Arg Nat
deriving DecidableEq, Repr

/-- The four values of SET RESERVES as carried (R125). -/
structure ReserveArgs where
  reserve0  : Arg Nat
  reserve1  : Arg Nat
  reserve2  : Arg Nat
  threshold : Arg Nat
deriving DecidableEq, Repr

/-- The five fields of SET ROUTE as carried (R183); the kind 255 is ANY. -/
structure RouteArgs where
  enable : Nat
  kind   : Nat
  value  : Nat
  mask   : Nat
  port   : Nat
deriving DecidableEq, Repr

/-! ### The commands -/

/-- The steps of the part (spec/opcode_table.json), in the table's order. -/
inductive Instr where
  /-- POWER_ON_RESET (R38): the straps are read then (R175). -/
  | powerOnReset (straps : Straps)
  /-- WARM_RESET (R179): the straps are read again. -/
  | warmReset (rq : Req) (straps : Straps)
  /-- REFERENCE_EDGE (R3, R4): `elapsed` µs after the last period edge. -/
  | referenceEdge (elapsed : Nat)
  /-- REFERENCE_WATCH_EXPIRY (R3). -/
  | referenceWatchExpiry
  /-- OSCILLATOR_EDGE (R3). -/
  | oscillatorEdge
  /-- LOCK_GAINED (R7). -/
  | lockGained (lane : Lane)
  /-- LOCK_LOST (R7). -/
  | lockLost (lane : Lane)
  /-- LANE_SAMPLE_FRAME (R7). -/
  | laneSampleFrame (lane : Lane) (frame : SampleFrame)
  /-- LANE_PERIOD_EDGE (R7, R8, R9): an audio lane takes a period edge. -/
  | lanePeriodEdge (lane : Lane) (edge : PeriodEdge)
  /-- LANE_CAPTION_PACKET (R10). -/
  | laneCaptionPacket (lane : Lane) (packet : CaptionPacket)
  /-- LANE_PROXY_FRAME (R11). -/
  | laneProxyFrame (lane : Lane) (frame : ProxyFrame)
  /-- SET_TIME (R2). -/
  | setTime (rq : Req) (mi : Mi)
  /-- READ_STATUS (R181). -/
  | readStatus (rq : Req) (selector : Nat)
  /-- CONFIGURE_SERVICE (R13, R14). -/
  | configureService (rq : Req) (svc : Nat) (args : ServiceArgs)
  /-- START_SERVICE (R17). -/
  | startService (rq : Req) (svc : Nat)
  /-- STOP_SERVICE (R18). -/
  | stopService (rq : Req) (svc : Nat)
  /-- STAGE (R22). -/
  | stage (rq : Req) (svc : Nat) (desc : DescArgs)
  /-- WITHDRAW (R23). -/
  | withdraw (rq : Req) (svc : Nat) (id : Nat)
  /-- CONFIGURE_GROUP (R25): the member set as a mask. -/
  | configureGroup (rq : Req) (group : Nat) (members : Nat)
  /-- GROUP_STAGE (R26). -/
  | groupStage (rq : Req) (group : Nat) (desc : DescArgs)
  /-- READ_SCHEDULE (R35). -/
  | readSchedule (rq : Req) (svc : Nat)
  /-- SCHEDULE_MI_TICK (R27 to R30). -/
  | scheduleMiTick (tick : Mi) (held : Bool)
  /-- RECORDING_STATE_CHANGED (R33, R34). -/
  | recordingStateChanged (svc : Svc) (state : Recording) (mi : Mi) (inst : Nat)
  /-- METER_RUN_STARTED (R39). -/
  | meterRunStarted (svc : Svc)
  /-- METER_SEGMENT_OPENED (R41). -/
  | meterSegmentOpened (svc : Svc) (msg : SegOpened)
  /-- METER_SEGMENT_CLOSED (R41). -/
  | meterSegmentClosed (svc : Svc) (msg : SegClosed)
  /-- METER_RUN_ENDED (R43). -/
  | meterRunEnded (svc : Svc) (endMi : Option Mi)
  /-- METER_SAMPLE_FRAME (R40). -/
  | meterSampleFrame (svc : Svc) (mi : Mi) (frame : SampleFrame)
  /-- METER_JUDGMENT (R40). -/
  | meterJudgment (svc : Svc) (mi : Mi) (judgment : Judgment)
  /-- METER_MI_TICK (R40). -/
  | meterMiTick (tick : Mi)
  /-- METER_MI_COMPLETION (R42). -/
  | meterMiCompletion (svc : Svc)
  /-- METER_SUMMARY (R54). -/
  | meterSummary (svc : Svc)
  /-- START_SURVEY (R64): the class set as a mask by class code. -/
  | startSurvey (rq : Req) (svc : Nat) (classes : Nat)
  /-- STOP_SURVEY (R65). -/
  | stopSurvey (rq : Req) (svc : Nat)
  /-- READ_SURVEY (R69). -/
  | readSurvey (rq : Req) (svc : Nat)
  /-- READ_METER (R72). -/
  | readMeter (rq : Req) (svc : Nat)
  /-- CHECKER_RUN_STARTED (R77). -/
  | checkerRunStarted (svc : Svc)
  /-- CHECKER_SEGMENT_OPENED (R84). -/
  | checkerSegmentOpened (svc : Svc) (msg : SegOpened)
  /-- CHECKER_SEGMENT_CLOSED (R84). -/
  | checkerSegmentClosed (svc : Svc) (msg : SegClosed)
  /-- CHECKER_RUN_ENDED (R86). -/
  | checkerRunEnded (svc : Svc) (endMi : Option Mi)
  /-- CHECKER_CAPTION_PACKET (R75). -/
  | checkerCaptionPacket (svc : Svc) (packet : CaptionPacket)
  /-- CHECKER_MI_TICK (R83). -/
  | checkerMiTick (tick : Mi)
  /-- ROW_PERSISTENCE_EXPIRY (R82). -/
  | rowPersistenceExpiry (svc : Svc) (row : Fin 16)
  /-- CAPTION_STREAM_EXPIRY (R81). -/
  | captionStreamExpiry (svc : Svc)
  /-- MI_RESULT (R87, R90). -/
  | miResult (svc : Svc) (result : MiResult)
  /-- CAPTION_COMBINATION (R87 to R89). -/
  | captionCombination (svc : Svc)
  /-- CAPTION_SUMMARY (R91). -/
  | captionSummary (svc : Svc)
  /-- METER_SUMMARY_ARRIVAL (R32). -/
  | meterSummaryArrival (svc : Svc) (inst : Nat) (summary : MeterSummary)
  /-- CAPTION_SUMMARY_ARRIVAL (R32). -/
  | captionSummaryArrival (svc : Svc) (inst : Nat) (summary : CaptionSummary)
  /-- RECORD_WRITE (R100). -/
  | recordWrite
  /-- HOLD_ANSWER (R111): a hold number, or `none` for "unavailable". -/
  | holdAnswer (hold : Option (Fin 32))
  /-- WRITE_PROFILE (R96, R97). -/
  | writeProfile (rq : Req) (profile : Nat) (args : ProfileArgs)
  /-- COLLECT (R115). -/
  | collect (rq : Req) (seq : Nat)
  /-- READ_LOG (R116). -/
  | readLog (rq : Req) (seq : Nat)
  /-- RECORDER_RUN_STARTED (R122). -/
  | recorderRunStarted (svc : Svc)
  /-- ON_AIR_MESSAGE (R122). -/
  | onAirMessage (svc : Svc) (msg : OnAirMsg)
  /-- RECORDER_RUN_ENDED (R138). -/
  | recorderRunEnded (svc : Svc) (endMi : Option Mi)
  /-- RECORDER_SAMPLE_FRAME (R131). -/
  | recorderSampleFrame (svc : Svc) (mi : Mi) (frame : SampleFrame)
  /-- RECORDER_JUDGMENT (R131, R123). -/
  | recorderJudgment (svc : Svc) (mi : Mi) (judgment : Judgment)
  /-- RECORDER_CAPTION_PACKET (R133). -/
  | recorderCaptionPacket (svc : Svc) (mi : Mi) (packet : CaptionPacket)
  /-- RECORDER_PROXY_FRAME (R132). -/
  | recorderProxyFrame (svc : Svc) (mi : Mi) (frame : ProxyFrame)
  /-- RECORDER_MI_TICK (R123). -/
  | recorderMiTick (tick : Mi)
  /-- SPAN_BOUNDARY (R123). -/
  | spanBoundary (svc : Svc)
  /-- CONFIGURE_STORE (R120). -/
  | configureStore (rq : Req) (slots : Nat)
  /-- SET_RESERVES (R125). -/
  | setReserves (rq : Req) (args : ReserveArgs)
  /-- READ_CHUNK_REVIEW (R140). -/
  | readChunkReview (rq : Req) (slot svc : Nat) (start : Mi) (offset length : Nat)
  /-- APPEND_STORED (R154). -/
  | appendStored (svc : Svc) (slot : Nat) (start : Mi)
  /-- APPEND_GAP (R154). -/
  | appendGap (svc : Svc) (start : Mi)
  /-- REMOVE_ENTRY (R154). -/
  | removeEntry (svc : Svc) (slot : Nat) (start : Mi)
  /-- MARK_LOST (R154). -/
  | markLost (svc : Svc) (slot : Nat) (start : Mi)
  /-- FIND_CLIP (R156). -/
  | findClip (rq : Req) (svc : Nat) (mi : Mi)
  /-- CREATE_HOLD (R146). -/
  | createHold (rq : Req) (svc : Nat) (fromMi toMi : Mi)
  /-- AUTOMATIC_HOLD_REQUEST (R147). -/
  | automaticHoldRequest (svc : Svc) (fromMi toMi : Mi) (seq : Nat)
  /-- RELEASE_HOLD (R149). -/
  | releaseHold (rq : Req) (hold : Nat)
  /-- FIX_HOLD (R150). -/
  | fixHold (rq : Req) (hold : Nat)
  /-- READ_HOLDS (R152). -/
  | readHolds (rq : Req)
  /-- TAKE (R159). -/
  | take (rq : Req) (duration : Arg Nat)
  /-- READ_CHUNK (R161). -/
  | readChunk (rq : Req) (slot token offset length : Nat)
  /-- CONFIRM (R162). -/
  | confirm (rq : Req) (slot token : Nat)
  /-- RETURN (R163). -/
  | returnTake (rq : Req) (slot token : Nat)
  /-- READ_ARCHIVE_STATUS (R169). -/
  | readArchiveStatus (rq : Req)
  /-- ARCHIVE_PERIOD_EDGE (R164): the MI number the edge begins, `none` while UNSET. -/
  | archivePeriodEdge (begun : Option Mi)
  /-- TAKE_TIMER_EXPIRY (R164). -/
  | takeTimerExpiry (slot : Nat)
  /-- LINK_ALIGNMENT (R170). -/
  | linkAlignment (port : PortNo)
  /-- LINK_DOWN (R170, R178): 4 invalid symbols within 64. -/
  | linkDown (port : PortNo)
  /-- LINK_SILENCE_TIMEOUT (R170, R178): 2 µs with no valid symbol. -/
  | linkSilenceTimeout (port : PortNo)
  /-- FRAME_RECEIVED (R171, R173): the END symbol. -/
  | frameReceived (port : PortNo)
  /-- REQUEST_SERVICE (R174). -/
  | requestService (port : PortNo)
  /-- NOTICE_ARRIVAL (R182, R184, R185). -/
  | noticeArrival (notice : Notice)
  /-- ATTENTION_PULSE (R186). -/
  | attentionPulse (port : PortNo)
  /-- SET_ROUTE (R183). -/
  | setRoute (rq : Req) (route : Nat) (args : RouteArgs)
  /-- SET_ATTENTION_MODE (R186). -/
  | setAttentionMode (rq : Req) (port mode : Nat)
  /-- READ_NOTICE (R185). -/
  | readNotice (rq : Req)
  /-- COUNTER_INCREMENT (R187). -/
  | counterIncrement (counter : Counter)
  /-- SET_ALERT_MASK (R187). -/
  | setAlertMask (rq : Req) (kinds : Nat)
  /-- READ_COUNTERS (R188). -/
  | readCounters (rq : Req) (selector : Nat)
  /-- CLEAR_ALERTS (R188). -/
  | clearAlerts (rq : Req) (selector : Nat)
  /-- CLEAR_COUNTERS (R189). -/
  | clearCounters (rq : Req) (selector : Nat)
  /-- START_SYMBOL (R171). -/
  | startSymbol (port : PortNo)
  /-- DATA_SYMBOL (R171). -/
  | dataSymbol (port : PortNo) (byte : Byte)
deriving DecidableEq, Repr

end Sys2Proof
end

