-- ==== Sys2Proof/Decode.lean ====
section
/-!
DEFINITION. The commands that words spell. No row of the table has bits: the steps of the part are events at its pins,
lanes and links and the arrivals of its messages, and none of them is an encoded word (log entry 1). The one encoding the
manual gives, that of a request in a frame, is in Machine/Requests.lean and Machine/Layout.lean.
-/

namespace Sys2Proof

/-- The command that a word spells by the table's bits: none, since the table gives no row any bits. -/
def decodeTableWord (_nbits _w : Nat) : Option Instr := none

end Sys2Proof
end

