-- ==== Sys2Proof/Config.lean ====
section
/-!
DEFINITION. What the manual leaves to the part: the free values. Each is an opaque constant: no proof can see
which value it has.
-/

namespace Sys2Proof

/-- The exact value of a level before it is rounded to a code (conventions 3.3). Each form determines the exact
value, and values of different forms never coincide (DEDUCED, log entry 2). -/
inductive ExactLevel where
  /-- Block or short-term loudness of the mean sub-block energy `e` (R48, R50). -/
  | energy (e : Rat)
  /-- Sample peak of the largest magnitude `m` (R51). -/
  | peak (m : Nat)
  /-- Integrated loudness of a mean weight, by its 20 coordinates over the powers 0 to 19 of 10^(1/20)
  (R61). -/
  | integrated (coords : List Rat)
deriving DecidableEq, Repr

namespace Config

/-- FREE VALUE. Within 0.0005 LU of a half-tenth boundary the part may report either neighbouring code; the choice
is a fixed function of the exact value (conventions 3.3, R61). `true` takes the upper code. -/
opaque nearHalfUp : ExactLevel → Bool

/-- FREE VALUE. The levels of the role straps that a WARM RESET reads which a port passes under a pass number, for each port
that of the higher bit (`true`) and of the lower (R175, R179): the straps are outside the part, and may have changed since
they were last read (log entry 3). -/
opaque strapLevel : PortNo → Nat → PortNo → Bool → Bool

end Config

end Sys2Proof
end

