-- ==== Sys2Proof/Machine/State.lean ====
section
/-!
DEFINITION. The state of the Zenowa 4616 as plain data, block by block as section 1.2 of the overview names
them, and the state after power-on reset.
-/

namespace Sys2Proof.Machine

/-! ### Faults and refusals -/

/-- Reasons for the part to stop. The manual describes none: every command has an effect or is answered with a
status, so no meaning raises this one. It is safe: a fault only hides behaviour. -/
inductive Fault where
  /-- Raised by no command. -/
  | none
deriving DecidableEq, Repr

/-- Reasons to give a command no meaning. -/
inductive Refusal where
  /-- A command that this model does not describe, by its row of the table; safe, and raised by no arm once every
  row has its meaning. -/
  | notModelled (mnemonic : String)
deriving DecidableEq, Repr

/-! ### Station time unit (1.1) -/

/-- Reference state (R3, R4). -/
inductive RefState where
  | locked | freeRun
deriving DecidableEq, Repr

/-- What issued a period edge (1.1.1). -/
inductive EdgeKind where
  | reference | oscillator
deriving DecidableEq, Repr

/-- The station time unit. -/
structure Station where
  /-- Station time; `none` is UNSET (R1). -/
  time    : Option Mi
  /-- Reference state (R3, R4). -/
  ref     : RefState
  /-- Instant of the last period edge, in µs from reset release (1.1.1). -/
  instant : Nat
  /-- Kind of the last period edge (1.1.1). -/
  kind    : EdgeKind
  /-- Reference-held indication of the last MI ended (R5, R6). -/
  held    : Bool
deriving DecidableEq, Repr

/-! ### Input lanes (1.2) -/

/-- Lock of an audio lane (R7). -/
inductive Lock where
  | held | notHeld
deriving DecidableEq, Repr

/-- One audio lane (1.2.1). -/
structure AudioLane where
  lock   : Lock
  broken : Bool
  frames : Nat
deriving DecidableEq, Repr

/-- Per-service input view (R9). -/
inductive InputView where
  | present | absent
deriving DecidableEq, Repr

/-! ### Service map (1.5) -/

/-- Weight of a channel list entry: 1.00 or 1.41 (R12). -/
inductive Weight where
  | w100 | w141
deriving DecidableEq, Repr

/-- One entry of an audio channel list (R12). -/
structure ChannelEntry where
  channel : Fin 8
  weight  : Weight
deriving DecidableEq, Repr

/-- A service record (R12). -/
structure ServiceRecord where
  audioLane      : Lane
  channels       : List ChannelEntry
  captionLane    : Lane
  captionStream  : Fin 8
  rowMask        : BitVec 16
  speechFloor    : Int
  streamTimeout  : Nat
  proxyLane      : Option Lane
  normalKeep     : BitVec 25
  reducedKeep    : BitVec 25
  recording      : Bool
  priority       : Fin 4
  overwrite      : Bool
  profile        : Fin 8
  unschedPlanned : Nat
  holdGuard      : Nat
deriving DecidableEq, Repr

/-! ### Schedule unit (chapter 2) -/

/-- State of a service (R16). -/
inductive SvcState where
  | disabled | ready | starting | running
deriving DecidableEq, Repr

/-- A staged descriptor (R21). -/
structure Descriptor where
  id      : Nat
  start   : Mi
  cls     : SegClass
  profile : Fin 8
  planned : Nat
deriving DecidableEq, Repr

/-- A segment, from its creation to the writing of its record (2.2.1). Its service is the one that holds it; its
state is OPEN or CLOSING by the place that holds it. -/
structure Segment where
  inst           : Nat
  id             : Option Nat
  cls            : SegClass
  profile        : Fin 8
  planned        : Nat
  stagedStart    : Mi
  actualStart    : Mi
  endMi          : Option Mi
  cause          : Option Cause
  late           : Bool
  referenceLost  : Bool
  incomplete     : Bool
  meterSummary   : Option MeterSummary
  captionSummary : Option CaptionSummary
deriving DecidableEq, Repr

/-- Intervals during which a run of a service has had an open segment (R9; the model's own record, log entry 5): from the one
that its opening tick begins and, once the run has ended, below `upTo`. Intervals are numbered by the period edges issued since
power-on, so that their numbers neither wrap nor change with SET TIME. -/
structure OpenSpan where
  first : Int
  upTo  : Option Int
deriving DecidableEq, Repr

/-- Schedule state of one service (chapter 2, first table), with the instance of the run's first segment (R33). -/
structure ServiceSched where
  state       : SvcState
  stopPending : Bool
  staging     : List Descriptor
  openSeg     : Option Segment
  closing     : List Segment
  instCounter : Nat
  view        : Recording
  viewFrom    : Option Mi
  runInst     : Option Nat
deriving DecidableEq, Repr

/-! ### Loudness meter (chapters 3 and 4) -/

/-- Run state of the meter or of the caption checker for a service (R39, R77). -/
inductive RunState where
  | idle | waiting | measuring
deriving DecidableEq, Repr

/-- The data of one MI held by the meter: one list of samples per frame, in the order of the channel list (R40). -/
structure HeldMi where
  mi       : Mi
  frames   : List (List Int)
  judgment : Option Judgment
  endTick  : Bool
deriving DecidableEq, Repr

/-- The past inputs and outputs of one filter stage (R44). -/
structure StageState where
  x1 : Rat
  x2 : Rat
  y1 : Rat
  y2 : Rat
deriving DecidableEq, Repr

/-- The filter of one channel list entry (R44). -/
structure EntryFilter where
  shelf    : StageState
  highPass : StageState
deriving DecidableEq, Repr

/-- One entry of the sub-block ring; `energy = none` is the absent mark (R46). -/
structure SubBlock where
  mi     : Mi
  energy : Option Rat
deriving DecidableEq, Repr

/-- Last block result (3.1.1). -/
inductive BlockResult where
  | none
  | code (c : Int)
  | belowGate
  | absentExcluded
deriving DecidableEq, Repr

/-- An entry of the meter's segment list with its accumulators (R41, R52). -/
structure MeterSegment where
  inst         : Nat
  cls          : SegClass
  start        : Mi
  endMi        : Option Mi
  mis          : Nat
  absentMis    : Nat
  positions    : Nat
  histogram    : Vector Nat 150
  belowGate    : Nat
  excluded     : Nat
  overRange    : Nat
  maxMomentary : Option Int
  maxShortTerm : Option Int
  maxSample    : Nat
deriving DecidableEq, Repr

/-- Survey state (R63). -/
inductive SurveyState where
  | idle | active | stopped
deriving DecidableEq, Repr

/-- An MI field that may be UNSET or none (R63, 10.8.1). -/
inductive MiMark where
  | none
  | unset
  | at (m : Mi)
deriving DecidableEq, Repr

/-- The survey of one service (R63); the class set is a mask by class code. -/
structure Survey where
  state     : SurveyState
  classes   : BitVec 5
  startMi   : MiMark
  stopMi    : MiMark
  bins      : Vector Nat 150
  belowGate : Nat
  saturated : Bool
deriving DecidableEq, Repr

/-- MIs that follow one another, from `first` to the one below `behind`. -/
structure MiSpan where
  first  : Mi
  behind : Mi
deriving DecidableEq, Repr

/-- Meter state of one service (3.1.1), its survey (R63), the service record as the meter took it at run started (R13), and the MIs
of the run that completion has passed over (the model's own record for R54, log entry 12). -/
structure MeterSvc where
  run        : RunState
  runStart   : Option Mi
  input      : List HeldMi
  lastTick   : Option Mi
  segments   : List MeterSegment
  filters    : List EntryFilter
  prevAbsent : Bool
  ring       : List SubBlock
  passed     : List MiSpan
  lastBlock  : BlockResult
  lastShort  : Option Int
  survey     : Survey
  record     : ServiceRecord
deriving DecidableEq, Repr

/-! ### Caption checker (chapter 5) -/

/-- Stream state; LOST keeps whether it was entered from LIVE or from WAITING (5.2). -/
inductive StreamState where
  | waiting | live | lostFromLive | lostFromWaiting
deriving DecidableEq, Repr

/-- An occupied caption row; `persistence = none` is UNTIL_ERASED (R79). -/
structure RowText where
  persistence : Option Nat
  count       : Nat
deriving DecidableEq, Repr

/-- A presence record (R83). -/
structure Presence where
  mi      : Mi
  present : Bool
  lost    : Bool
deriving DecidableEq, Repr

/-- An entry of the checker's segment list with its accumulators (R84, 5.6). -/
structure CaptionSegment where
  inst       : Nat
  id         : Option Nat
  cls        : SegClass
  profile    : Fin 8
  start      : Mi
  endMi      : Option Mi
  combined   : Nat
  judged     : Nat
  audible    : Nat
  covered    : Nat
  lost       : Nat
  gapRun     : Nat
  gapFirst   : Option Mi
  gapCounted : Bool
  gapCount   : Nat
  longestGap : Nat
deriving DecidableEq, Repr

/-- Checker state of one service (5.2); a row that is not occupied is `none`. `runStart` is the actual start of the
segment that moved the checker to MEASURING (R86), and `record` the service record as the checker took it at run
started (R13). -/
structure CheckerSvc where
  run      : RunState
  runStart : Option Mi
  lastTick : Option Mi
  stream   : StreamState
  timer    : Nat
  rows     : Vector (Option RowText) 16
  textSeen : Bool
  presence : List Presence
  held     : List MiResult
  segments : List CaptionSegment
  record   : ServiceRecord
deriving DecidableEq, Repr

/-! ### Compliance unit (chapter 6) -/

/-- A compliance profile (R95); `none` is NONE. -/
structure Profile where
  target      : Int
  tolerance   : Nat
  shortTerm   : Option Int
  peak        : Option Int
  relative    : Option Nat
  captions    : Bool
  minCoverage : Nat
  maxGap      : Option Nat
  overrun     : Nat
deriving DecidableEq, Repr

/-- A reference loudness: integrated code and the sequence that gave it (R99). -/
structure Reference where
  code : Int
  seq  : Nat
deriving DecidableEq, Repr

/-- Result of a check, and of a verdict (6.4, R110). -/
inductive CheckResult where
  | pass | fail | notMeasured | notApplicable
deriving DecidableEq, Repr

/-- The hold field of a record (6.3.2). -/
inductive HoldField where
  | none
  | hold (n : Fin 32)
  | unavailable
deriving DecidableEq, Repr

/-- The six check results (6.4). -/
structure Checks where
  loudness   : CheckResult
  shortTerm  : CheckResult
  peak       : CheckResult
  relative   : CheckResult
  coverage   : CheckResult
  captionGap : CheckResult
deriving DecidableEq, Repr

/-- A compliance record (6.3.2). -/
structure Record where
  seq           : Nat
  svc           : Svc
  id            : Option Nat
  cls           : SegClass
  profile       : Fin 8
  stagedStart   : Mi
  actualStart   : Mi
  endMi         : Mi
  cause         : Cause
  late          : Bool
  referenceLost : Bool
  incomplete    : Bool
  positions     : Nat
  binned        : Nat
  belowGate     : Nat
  excluded      : Nat
  overRange     : Nat
  integrated    : Option Int
  maxMomentary  : Option Int
  maxShortTerm  : Option Int
  peak          : Option Int
  refUsed       : Option Reference
  judged        : Nat
  audible       : Nat
  covered       : Nat
  gapCount      : Nat
  longestGap    : Nat
  streamLost    : Nat
  checks        : Checks
  verdict       : CheckResult
  hold          : HoldField
  lostBefore    : Nat
deriving DecidableEq, Repr

/-- What waits to be taken by the compliance unit: a completed segment (R32, R100), or the clearing of every
reference loudness that a warm reset has placed behind the completions it found (R118). -/
inductive Waiting where
  | completion (svc : Svc) (seg : Segment)
  | clearReferences
deriving DecidableEq, Repr

/-- The compliance unit (chapter 6, first table). The log is oldest record first. -/
structure Compliance where
  profiles : Vector Profile 8
  refs     : Vector (Option Reference) 16
  log      : List Record
  nextSeq  : Nat
  mark     : Nat
  loss     : Nat
  writing  : Option Record
  waiting  : List Waiting
deriving DecidableEq, Repr

/-! ### Recorder (chapter 7) -/

/-- A proxy frame stored in a chunk, with its MI offset (R132); its second is that of the offset. -/
structure StoredFrame where
  offset   : Nat
  position : Nat
  bytes    : List Byte
deriving DecidableEq, Repr

/-- A caption packet stored in a chunk, with its MI offset (R133). -/
structure StoredPacket where
  offset : Nat
  packet : CaptionPacket
deriving DecidableEq, Repr

/-- The contents of a slot (7.4): the stored places of the 20 MI areas of the audio downmix (the places beyond
a list's end hold zero), the frame area, the caption area with the packets beyond its end counted by MI offset, and what
the header is written from at the seal (R137). -/
structure Chunk where
  audio    : Vector (List (Int × Int)) 20
  frames   : List StoredFrame
  packets  : List StoredPacket
  overflow : Vector Nat 20
  absent   : BitVec 20
  first    : Mi
  endMi    : Mi
  segments : List (Option Nat)
  more     : Bool
  keep     : BitVec 25
deriving DecidableEq, Repr

/-- Keep set used (R130, R136). -/
inductive KeepSet where
  | normal | reduced
deriving DecidableEq, Repr

/-- State of a slot that is not FREE (R121); an ARCHIVED slot holds its confirming token (R162). -/
inductive SlotState where
  | filling
  | sealed
  | inTransfer
  | archived (token : Nat)
deriving DecidableEq, Repr

/-- The chunk table fields of a slot that is not FREE, with its contents (R121). -/
structure Slot where
  state      : SlotState
  svc        : Svc
  start      : Mi
  keepUsed   : KeepSet
  sealNo     : Option Nat
  holdCount  : Nat
  length     : Nat
  cutShort   : Bool
  fillFrames : Bool
  chunk      : Chunk
deriving DecidableEq, Repr

/-- Backlog state (R136). -/
inductive BacklogState where
  | normal | high
deriving DecidableEq, Repr

/-- The part-wide state of the recorder. The chunk table lists the slots that are not FREE, in rising slot number;
a slot not listed is FREE. The archive queue is the SEALED slots in seal order, and the backlog their number
(R157). -/
structure Store where
  slotCount : Nat
  slots     : List (Nat × Slot)
  sealCount : Nat
  reserve0  : Nat
  reserve1  : Nat
  reserve2  : Nat
  threshold : Nat
  backlog   : BacklogState
deriving DecidableEq, Repr

/-- Run state of the recorder for a service (R122). -/
inductive RecorderRun where
  | idle | waiting | active
deriving DecidableEq, Repr

/-- The current span of a service: its start, the filling slot or (`none`) the gap mark (R123), and the offsets of
the MIs whose judgment has been taken (R123, R138). -/
structure Span where
  start  : Mi
  slot   : Option Nat
  judged : BitVec 20
deriving DecidableEq, Repr

/-- An item of recorder input (R124). -/
inductive RecorderItem where
  | frame (f : SampleFrame)
  | judgment (j : Judgment)
  | packet (p : CaptionPacket)
  | proxy (f : ProxyFrame)
deriving DecidableEq, Repr

/-- An item of the held input with its MI tag (R124). -/
structure HeldItem where
  mi   : Mi
  item : RecorderItem
deriving DecidableEq, Repr

/-- An entry of the on-air list (R134). -/
structure OnAir where
  id    : Option Nat
  start : Mi
deriving DecidableEq, Repr

/-- Recorder state of one service (chapter 7, first table), the instance of the run's first on-air message (R129),
the last MI tick taken (R123), and the service record as taken at run started (R13). -/
structure RecorderSvc where
  run      : RecorderRun
  runStart : Option Mi
  enable   : Option Bool
  span     : Option Span
  state    : Option Recording
  onAir    : List OnAir
  held     : List HeldItem
  runInst  : Option Nat
  lastTick : Option Mi
  record   : ServiceRecord
deriving DecidableEq, Repr

/-! ### Hold table and clip index (chapter 8) -/

/-- Origin of a hold (R144). -/
inductive HoldOrigin where
  | automatic (seq : Nat)
  | console
deriving DecidableEq, Repr

/-- A live hold (R144). -/
structure Hold where
  svc    : Svc
  fromMi : Mi
  toMi   : Mi
  origin : HoldOrigin
  fixed  : Bool
deriving DecidableEq, Repr

/-- Kind of a clip index entry (R153). -/
inductive ClipKind where
  | stored (slot : Nat)
  | gap
  | lost
deriving DecidableEq, Repr

/-- A clip index entry (R153). -/
structure ClipEntry where
  start : Mi
  kind  : ClipKind
deriving DecidableEq, Repr

/-- The clip index: one list per service in rising chunk start, and the pool order of the GAP and LOST entries,
oldest first (R153, R155). -/
structure ClipIndex where
  lists : Vector (List ClipEntry) 16
  pool  : List (Svc × Mi)
deriving DecidableEq, Repr

/-! ### Archive queue (chapter 9) -/

/-- The take of an IN_TRANSFER slot (R158). -/
structure Take where
  slot      : Nat
  token     : Nat
  takeMi    : Option Mi
  duration  : Nat
  remaining : Nat
deriving DecidableEq, Repr

/-- The archive queue's own state: the takes in flight, oldest first, and the token counter (R158). -/
structure Archive where
  takes        : List Take
  tokenCounter : Nat
deriving DecidableEq, Repr

/-! ### Counter bank and notice router (chapter 11) -/

/-- A counter with its alert flags and their seen marks, one bit per port (11.2.1). -/
structure CounterCell where
  value    : Nat
  half     : Bool
  full     : Bool
  seenHalf : BitVec 3
  seenFull : BitVec 3
deriving DecidableEq, Repr

/-- The counter bank: per service the 12 counters by kind number; the part-wide five (ARCHIVE_TIMEOUTS,
LOG_RECORDS_LOST, FRAMES_DISCARDED of ports 0 to 2); the alert mask by kind number (11.2.1). -/
structure Bank where
  services : Vector (Vector CounterCell 12) 16
  part     : Vector CounterCell 5
  mask     : BitVec 15
deriving DecidableEq, Repr

/-- A route (R183); `kind = none` is ANY. -/
structure Route where
  enabled : Bool
  kind    : Option NoticeKind
  value   : BitVec 4
  mask    : BitVec 4
  port    : PortNo
deriving DecidableEq, Repr

/-- A notice record of a port's queue (11.1.1). -/
structure NoticeRecord where
  notice        : Notice
  droppedBefore : Nat
deriving DecidableEq, Repr

/-- The router's state of one port: its notice queue, dropped count, attention mode and pulses owed (11, first
table); the level of its attention line (R186); and the pulses its line has given since power-on. -/
structure PortNotices where
  queue   : List NoticeRecord
  dropped : Nat
  mode    : AttentionMode
  owed    : Nat
  line    : Bool
  pulses  : Nat
deriving DecidableEq, Repr

/-- The notice router (chapter 11). -/
structure Router where
  routes : Vector Route 16
  ports  : Vector PortNotices 3
deriving DecidableEq, Repr

/-! ### Responses (chapter 10) -/

/-- Status codes (R180). -/
inductive Status where
  | ok | clamped | busy | notPermitted | badArgument | full | empty | order | conflict
  | notFound | gone | tooLate | state | fixed
deriving DecidableEq, Repr

/-- Stream state as READ STATUS shows it (R92). -/
inductive StreamShown where
  | waiting | live | lost
deriving DecidableEq, Repr

/-- An entry of the checker's segment list as READ STATUS shows it (R92). -/
structure CaptionSegmentView where
  inst       : Nat
  endMi      : Option Mi
  combined   : Nat
  judged     : Nat
  audible    : Nat
  covered    : Nat
  lost       : Nat
  gapRun     : Nat
  gapCount   : Nat
  longestGap : Nat
deriving DecidableEq, Repr

/-- The caption part of READ STATUS (R92); with the row mask beside the row table, every row is shown with whether it is
in the mask. -/
structure CaptionView where
  run           : RunState
  stream        : StreamShown
  timer         : Nat
  rows          : Vector (Option RowText) 16
  rowMask       : BitVec 16
  segments      : List CaptionSegmentView
  presenceCount : Nat
  heldCount     : Nat
deriving DecidableEq, Repr

/-- The compliance part of READ STATUS (R117). -/
structure ComplianceView where
  profiles    : Vector Profile 8
  refs        : Vector (Option Reference) 16
  lastWritten : Nat
  oldestHeld  : Nat
  recordsHeld : Nat
  mark        : Nat
  uncollected : Nat
  writing     : Option (Nat × Svc)
  waiting     : Nat
deriving DecidableEq, Repr

/-- One service's line of the recorder part of READ STATUS (R141). -/
structure RecorderSvcView where
  run    : RecorderRun
  enable : Option Bool
  span   : Option Mi
  slot   : Option Nat
  state  : Option Recording
  keep   : Option KeepSet
deriving DecidableEq, Repr

/-- The recorder's share of the recorder part of READ STATUS (R141). -/
structure RecorderView where
  slotCount      : Nat
  free           : Nat
  filling        : Nat
  sealed         : Nat
  inTransfer     : Nat
  archived       : Nat
  archivedUnheld : Nat
  reusable       : Nat
  sealCount      : Nat
  reserve0       : Nat
  reserve1       : Nat
  reserve2       : Nat
  threshold      : Nat
  backlog        : Nat
  backlogState   : BacklogState
  services       : List RecorderSvcView
deriving DecidableEq, Repr

/-- One port's line of the port part of READ STATUS (R181). -/
structure PortView where
  strap  : Role
  role   : Role
  linkUp : Bool
  queued : Nat
deriving DecidableEq, Repr

/-- An entry of the closing set as READ SCHEDULE shows it (R35). -/
structure ClosingView where
  inst          : Nat
  id            : Option Nat
  cause         : Option Cause
  actualStart   : Mi
  endMi         : Option Mi
  needsSummary  : Bool
  meterReceived : Bool
  captReceived  : Bool
deriving DecidableEq, Repr

/-- The open segment as READ SCHEDULE shows it (R35). -/
structure OpenView where
  inst          : Nat
  id            : Option Nat
  cls           : SegClass
  profile       : Fin 8
  stagedStart   : Mi
  actualStart   : Mi
  planned       : Nat
  elapsed       : Nat
  late          : Bool
  referenceLost : Bool
  incomplete    : Bool
deriving DecidableEq, Repr

/-- The answer of READ SCHEDULE (R35). -/
structure ScheduleView where
  state       : SvcState
  stopPending : Bool
  time        : Option Mi
  openSeg     : Option OpenView
  staging     : List (Descriptor × Bool)
  closing     : List ClosingView
  view        : Recording
  viewFrom    : Option Mi
  groups      : Vector (BitVec 16) 4
deriving DecidableEq, Repr

/-- The answer of READ SURVEY (R69). -/
structure SurveyView where
  state      : SurveyState
  classes    : BitVec 5
  startMi    : MiMark
  stopMi     : MiMark
  bins       : Vector Nat 150
  total      : Nat
  belowGate  : Nat
  saturated  : Bool
  integrated : Option Int
deriving DecidableEq, Repr

/-- The current segment part of READ METER (R72). -/
structure MeterSegmentView where
  inst         : Nat
  cls          : SegClass
  start        : Mi
  mis          : Nat
  absentMis    : Nat
  positions    : Nat
  binned       : Nat
  belowGate    : Nat
  excluded     : Nat
  overRange    : Nat
  maxMomentary : Option Int
  maxShortTerm : Option Int
  peak         : Option Int
  integrated   : Option Int
deriving DecidableEq, Repr

/-- The answer of READ METER (R72). -/
structure MeterView where
  run       : RunState
  lastBlock : BlockResult
  lastShort : Option Int
  segment   : Option MeterSegmentView
deriving DecidableEq, Repr

/-- A FIND CLIP answer (R156); the slot state `none` is FREE. -/
inductive ClipView where
  | stored (start : Mi) (slot : Nat) (state : Option SlotState) (sealNo : Option Nat) (holdCount : Nat)
  | gap (start : Mi)
  | lost (start : Mi)
deriving DecidableEq, Repr

/-- A live hold as READ HOLDS shows it (R152). -/
structure HoldView where
  number : Fin 32
  hold   : Hold
  slots  : Nat
deriving DecidableEq, Repr

/-- The answer of TAKE (R159). -/
structure TakeView where
  slot       : Nat
  token      : Nat
  sealNo     : Option Nat
  svc        : Svc
  start      : Mi
  length     : Nat
  cutShort   : Bool
  fillFrames : Bool
  holdCount  : Nat
  duration   : Nat
deriving DecidableEq, Repr

/-- A take as READ ARCHIVE STATUS lists it (R169). -/
structure TakeStatus where
  take   : Take
  svc    : Svc
  start  : Mi
  sealNo : Option Nat
deriving DecidableEq, Repr

/-- The answer of READ ARCHIVE STATUS (R169); head and tail are (slot, seal number). -/
structure ArchiveView where
  queueLength  : Nat
  head         : Option (Nat × Nat)
  tail         : Option (Nat × Nat)
  backlogState : BacklogState
  threshold    : Nat
  inFlight     : Nat
  takes        : List TakeStatus
  lastToken    : Nat
deriving DecidableEq, Repr

/-- A counter as READ COUNTERS shows it (R188). -/
structure CounterView where
  value : Nat
  half  : Bool
  full  : Bool
deriving DecidableEq, Repr

/-- The payload of a response: the fields that the request's rule lists for its answer. -/
inductive Answer where
  /-- No payload. -/
  | nothing
  /-- READ STATUS, station part (R6). -/
  | station (time : Option Mi) (ref : RefState) (held : Bool)
  /-- READ STATUS, service part (R16, R92). -/
  | service (state : SvcState) (stopPending : Bool) (caption : CaptionView)
  /-- READ STATUS, compliance part (R117). -/
  | compliance (v : ComplianceView)
  /-- READ STATUS, recorder part (R141), with the number of entries in the clip index pool (R155). -/
  | recorder (v : RecorderView) (pool : Nat)
  /-- READ STATUS, port part (R181). -/
  | ports (v : List PortView) (reading : PortNo)
  /-- The late indication of STAGE and GROUP STAGE (R22, R26). -/
  | late (b : Bool)
  /-- The failing member of GROUP STAGE (R26). -/
  | member (s : Svc)
  /-- READ SCHEDULE (R35). -/
  | schedule (v : ScheduleView)
  /-- READ SURVEY (R69). -/
  | survey (v : SurveyView)
  /-- READ METER (R72). -/
  | meter (v : MeterView)
  /-- WRITE PROFILE: the profile as stored (R96). -/
  | profile (n : Fin 8) (p : Profile)
  /-- COLLECT: the collection mark (R115). -/
  | mark (m : Nat)
  /-- READ LOG, OK (R116). -/
  | record (r : Record) (lastWritten mark : Nat)
  /-- READ LOG, GONE (R116). -/
  | logGone (oldestHeld lastWritten mark : Nat)
  /-- READ LOG, NOT_FOUND (R116). -/
  | logNotFound (lastWritten mark : Nat)
  /-- CONFIGURE STORE (R120). -/
  | store (slotCount threshold reserve0 reserve1 reserve2 : Nat)
  /-- SET RESERVES (R125). -/
  | reserves (reserve0 reserve1 reserve2 threshold : Nat)
  /-- READ CHUNK REVIEW (R140). -/
  | review (state : SlotState) (sealNo : Option Nat) (length holdCount : Nat) (bytes : List Byte)
  /-- FIND CLIP (R156). -/
  | clip (v : ClipView)
  /-- CREATE HOLD (R146). -/
  | holdCreated (n : Fin 32) (slots : Nat)
  /-- RELEASE HOLD (R149). -/
  | holdReleased (slots : Nat)
  /-- READ HOLDS (R152). -/
  | holds (free : Nat) (live : List HoldView)
  /-- TAKE (R159). -/
  | take (v : TakeView)
  /-- READ CHUNK (R161). -/
  | chunk (sealNo : Option Nat) (length remaining : Nat) (bytes : List Byte)
  /-- CONFIRM: the repeated mark (R162). -/
  | repeated (b : Bool)
  /-- READ ARCHIVE STATUS (R169). -/
  | archive (v : ArchiveView)
  /-- SET ROUTE: the route as stored (R183). -/
  | route (r : Route)
  /-- READ NOTICE (R185). -/
  | notice (r : NoticeRecord)
  /-- READ COUNTERS (R188). -/
  | counters (l : List CounterView)
  /-- CLEAR ALERTS: the flags still set among the selected counters, as (place in the selection, HALF, FULL)
  (R188). -/
  | alerts (l : List (Nat × Bool × Bool))
deriving DecidableEq, Repr

/-- A response that a port has sent (R174, 10.8.2). -/
structure Response where
  tag    : Byte
  status : Status
  answer : Answer
deriving DecidableEq, Repr

/-! ### Link ports (chapter 10) -/

/-- Link state (R170). -/
inductive LinkState where
  | up | down
deriving DecidableEq, Repr

/-- A request as a port took it from a frame (10.8.2, R173). -/
structure Request where
  tag     : Byte
  code    : Byte
  payload : List Byte
deriving DecidableEq, Repr

/-- One link port (chapter 10, first table): strapped value and role held (R175), link state, request queue (the
head is in service), the frame in reception; the number of the pass under which the request in service was handed
to its owning block, the number of passes made, and the responses sent, in order. -/
structure Port where
  strap   : Role
  role    : Role
  link    : LinkState
  queue   : List Request
  rx      : Option (List Byte)
  serving : Option Nat
  passes  : Nat
  out     : List Response
deriving DecidableEq, Repr

/-! ### The part -/

/-- R181: the share of a part of READ STATUS that the first of two blocks has taken. -/
inductive StatusShare where
  /-- The schedule unit's: service state and stop-pending mark (R16). -/
  | service (svc : Svc) (state : SvcState) (stopPending : Bool)
  /-- The recorder's (R141). -/
  | recorder (v : RecorderView)
deriving DecidableEq, Repr

/-- R181: a READ STATUS between its two shares, on its way from the first block to the second. -/
structure HalfStatus where
  rq       : Req
  selector : Nat
  share    : StatusShare
deriving DecidableEq, Repr

/-- The state of the part: its fourteen blocks, the messages under way between them in the order sent (each as the
command its arrival will be), and the queue of the commands that wait. `edges`, the number of period edges issued since
power-on, and `openSpans`, the intervals during which each run of a service has had an open segment, oldest run first, are the
model's own record for R9 (log entry 5); `shares` holds the requests READ STATUS that are between two shares (log entry 19). -/
structure State where
  station    : Station
  lanes      : Vector AudioLane 16
  views      : Vector InputView 16
  map        : Vector ServiceRecord 16
  sched      : Vector ServiceSched 16
  groups     : Vector (BitVec 16) 4
  meter      : Vector MeterSvc 16
  checker    : Vector CheckerSvc 16
  compliance : Compliance
  store      : Store
  recorder   : Vector RecorderSvc 16
  holds      : Vector (Option Hold) 32
  clips      : ClipIndex
  archive    : Archive
  ports      : Vector Port 3
  router     : Router
  bank       : Bank
  edges      : Nat
  openSpans  : Vector (List OpenSpan) 16
  shares     : List HalfStatus
  inFlight   : List Instr
  pending    : List Instr
deriving DecidableEq, Repr

/-! ### After power-on reset -/

/-- The power-on column of R12 for service `i`. -/
def ServiceRecord.powerOn (i : Svc) : ServiceRecord where
  audioLane := i
  channels := [⟨0, .w100⟩, ⟨1, .w100⟩]
  captionLane := i
  captionStream := 0
  rowMask := BitVec.allOnes 16
  speechFloor := -500
  streamTimeout := 50
  proxyLane := none
  normalKeep := BitVec.allOnes 25
  reducedKeep := BitVec.ofNat 25 (2 ^ 0 + 2 ^ 5 + 2 ^ 10 + 2 ^ 15 + 2 ^ 20)
  recording := false
  priority := 0
  overwrite := false
  profile := 0
  unschedPlanned := 36000
  holdGuard := 100

/-- 1.1.1: UNSET, FREE_RUN, an oscillator edge at reset release; the instant and the held indication are DESIGN CHOICE
(log entry 21). -/
def Station.powerOn : Station where
  time := none
  ref := .freeRun
  instant := 0
  kind := .oscillator
  held := false

/-- The power-on column of 1.2.1. -/
def AudioLane.powerOn : AudioLane where
  lock := .notHeld
  broken := true
  frames := 0

/-- R38. -/
def ServiceSched.powerOn : ServiceSched where
  state := .disabled
  stopPending := false
  staging := []
  openSeg := none
  closing := []
  instCounter := 0
  view := .recording
  viewFrom := none
  runInst := none

/-- The power-on column of R63. -/
def Survey.powerOn : Survey where
  state := .idle
  classes := 0
  startMi := .none
  stopMi := .none
  bins := Vector.replicate 150 0
  belowGate := 0
  saturated := false

/-- R57 and the power-on column of 3.1.1. -/
def MeterSvc.powerOn (i : Svc) : MeterSvc where
  run := .idle
  runStart := none
  input := []
  lastTick := none
  segments := []
  filters := []
  prevAbsent := false
  ring := []
  passed := []
  lastBlock := .none
  lastShort := none
  survey := Survey.powerOn
  record := ServiceRecord.powerOn i

/-- R94 and the power-on column of 5.2. -/
def CheckerSvc.powerOn (i : Svc) : CheckerSvc where
  run := .idle
  runStart := none
  lastTick := none
  stream := .waiting
  timer := 0
  rows := Vector.replicate 16 none
  textSeen := false
  presence := []
  held := []
  segments := []
  record := ServiceRecord.powerOn i

/-- The default column of R95. -/
def Profile.default : Profile where
  target := -230
  tolerance := 10
  shortTerm := none
  peak := some (-10)
  relative := none
  captions := false
  minCoverage := 900
  maxGap := some 100
  overrun := 50

/-- R119. -/
def Compliance.powerOn : Compliance where
  profiles := Vector.replicate 8 Profile.default
  refs := Vector.replicate 16 none
  log := []
  nextSeq := 1
  mark := 0
  loss := 0
  writing := none
  waiting := []

/-- R143. -/
def Store.powerOn : Store where
  slotCount := 16384
  slots := []
  sealCount := 0
  reserve0 := 2048
  reserve1 := 1024
  reserve2 := 256
  threshold := 8192
  backlog := .normal

/-- R143 and the power-on column of chapter 7. -/
def RecorderSvc.powerOn (i : Svc) : RecorderSvc where
  run := .idle
  runStart := none
  enable := none
  span := none
  state := none
  onAir := []
  held := []
  runInst := none
  lastTick := none
  record := ServiceRecord.powerOn i

/-- A port after power-on with a strapped value and the role held (R170, R175, R179). -/
def Port.powerOn (strap role : Role) : Port where
  strap := strap
  role := role
  link := .down
  queue := []
  rx := none
  serving := none
  passes := 0
  out := []

/-- A counter at 0 with its flags and seen marks clear (R189). -/
def CounterCell.zero : CounterCell where
  value := 0
  half := false
  full := false
  seenHalf := 0
  seenFull := 0

/-- R189: every counter zero, all 15 kinds enabled. -/
def Bank.powerOn : Bank where
  services := Vector.replicate 16 (Vector.replicate 12 CounterCell.zero)
  part := Vector.replicate 5 CounterCell.zero
  mask := BitVec.allOnes 15

/-- R183: disabled, kind ANY, service value 0, mask 0000, port 0. -/
def Route.powerOn : Route where
  enabled := false
  kind := none
  value := 0
  mask := 0
  port := 0

/-- R185, R186: empty, LEVEL, no pulse owed, the line inactive. -/
def PortNotices.powerOn : PortNotices where
  queue := []
  dropped := 0
  mode := .level
  owed := 0
  line := false
  pulses := 0

/-- The part right after power-on reset, with its ports strapped PLAYOUT, CONSOLE and ARCHIVE (DESIGN CHOICE, log
entry 3). -/
def State.reset : State where
  station := Station.powerOn
  lanes := Vector.replicate 16 AudioLane.powerOn
  views := Vector.replicate 16 .present
  map := Vector.ofFn ServiceRecord.powerOn
  sched := Vector.replicate 16 ServiceSched.powerOn
  groups := Vector.replicate 4 0
  meter := Vector.ofFn MeterSvc.powerOn
  checker := Vector.ofFn CheckerSvc.powerOn
  compliance := Compliance.powerOn
  store := Store.powerOn
  recorder := Vector.ofFn RecorderSvc.powerOn
  holds := Vector.replicate 32 none
  clips := ⟨Vector.replicate 16 [], []⟩
  archive := ⟨[], 0⟩
  ports := #v[Port.powerOn .playout .playout, Port.powerOn .console .console, Port.powerOn .archive .archive]
  router := ⟨Vector.replicate 16 Route.powerOn, Vector.replicate 3 PortNotices.powerOn⟩
  bank := Bank.powerOn
  edges := 0
  openSpans := Vector.replicate 16 []
  shares := []
  inFlight := []
  pending := []

end Sys2Proof.Machine
end

