-- ==== Sys2Proof/Machine/Ops.lean ====
section
/-!
DEFINITION. The named operations that every block shares: a message sent and its arrival, a response, a block's
part of the state replaced.
-/

namespace Sys2Proof.Machine

/-- What a command comes to. -/
abbrev Result := Host.Outcome State Fault Refusal

/-- The services S0 to S15 in ascending order. -/
def allSvcs : List Svc := List.finRange 16

/-- The lanes 0 to 15 in ascending order. -/
def allLanes : List Lane := List.finRange 16

/-- The ports 0 to 2 in ascending order. -/
def allPorts : List PortNo := List.finRange 3

/-- `f` on every place of a vector. -/
def mapVec {α β : Type} {n : Nat} (f : α → β) (v : Vector α n) : Vector β n :=
  Vector.ofFn fun i => f v[i]

/-- The number `n` as one of the `k` things it names, if it names one (R177). -/
def asFin (k n : Nat) : Option (Fin k) :=
  if h : n < k then some ⟨n, h⟩ else none

/-- The notice of a kind, as it travels to the notice router (R182). -/
def notice (kind : NoticeKind) (svc : Option Svc) (mi : Option Mi) (detail : Detail) : Instr :=
  .noticeArrival ⟨kind, svc, mi, detail⟩

/-- An increment of a per-service counter, as it travels to the counter bank (R187). -/
def increment (k : SvcCounter) (svc : Svc) : Instr :=
  .counterIncrement (.service k svc)

/-- The counter of an increment under way (R187). -/
def incrementOf : Instr → Option Counter
  | .counterIncrement c => some c
  | _ => none

/-- R170, R174: a response goes out on the link; in LINK_DOWN nothing does. -/
def Port.say (x : Port) (r : Response) : Port :=
  { x with
    out := match x.link with
      | .up => x.out ++ [r]
      | .down => x.out }

namespace State

/-- The station time as it stands: the MI in progress, or UNSET (R1). -/
def now (s : State) : Option Mi := s.station.time

/-- Messages sent, in order, behind those under way. -/
def send (s : State) (ms : List Instr) : State :=
  { s with inFlight := s.inFlight ++ ms }

/-- A message arrives: it is under way no longer. An arrival that is commanded without having been sent leaves
the messages under way as they are. -/
def arrive (s : State) (c : Instr) : State :=
  { s with inFlight := s.inFlight.erase c }

/-- The schedule state of a service replaced. -/
def setSched (s : State) (i : Svc) (x : ServiceSched) : State :=
  { s with sched := s.sched.set i x }

/-- The meter state of a service replaced. -/
def setMeter (s : State) (i : Svc) (x : MeterSvc) : State :=
  { s with meter := s.meter.set i x }

/-- The checker state of a service replaced. -/
def setChecker (s : State) (i : Svc) (x : CheckerSvc) : State :=
  { s with checker := s.checker.set i x }

/-- The recorder state of a service replaced. -/
def setRecorder (s : State) (i : Svc) (x : RecorderSvc) : State :=
  { s with recorder := s.recorder.set i x }

/-- A port replaced. -/
def setPort (s : State) (p : PortNo) (x : Port) : State :=
  { s with ports := s.ports.set p x }

/-- The router's state of a port replaced. -/
def setNotices (s : State) (p : PortNo) (x : PortNotices) : State :=
  { s with router := { s.router with ports := s.router.ports.set p x } }

/-- A service acts in the part while it is STARTING or RUNNING (R16). -/
def acting (s : State) (i : Svc) : Bool :=
  s.sched[i].state == .starting || s.sched[i].state == .running

/-- R174: the response to a request goes out on its port under the request's tag. The request that the port has in
service then leaves its queue, and the next one enters service (R173). In LINK_DOWN the response is discarded, and so is
that of a request whose port has been through LINK_DOWN and back meanwhile (R170, R178). A request commanded directly
leaves the queue as it is (DEDUCED, log entry 17). -/
def respond (s : State) (rq : Req) (st : Status) (a : Answer) : State :=
  let p := s.ports[rq.port]
  let q := p.say ⟨rq.tag, st, a⟩
  match rq.pass with
  | none => s.setPort rq.port q
  | some k =>
    if p.serving = some k then
      let s' := s.setPort rq.port { q with queue := p.queue.tail, serving := none }
      if p.queue.tail.isEmpty then s' else s'.send [.requestService rq.port]
    else s

/-- A response whose status is OK with CLAMPED when an argument was replaced, and OK otherwise (R177). -/
def respondOk (s : State) (rq : Req) (clamped : Bool) (a : Answer) : State :=
  s.respond rq (if clamped then .clamped else .ok) a

/-- A refusal without payload (R180). -/
def refuse (s : State) (rq : Req) (st : Status) : State :=
  s.respond rq st .nothing

end State

end Sys2Proof.Machine
end

