-- ==== Sys2Proof/Machine/Flags.lean ====
section
/-!
DEFINITION. The six checks of a record and its verdict (6.4).
-/

namespace Sys2Proof.Machine

/-- R105: LOUDNESS. -/
def checkLoudness (p : Profile) (integrated : Option Int) : CheckResult :=
  match integrated with
  | none => .notMeasured
  | some c => if (c - p.target).natAbs ≤ p.tolerance then .pass else .fail

/-- R106: a measurement against a ceiling (SHORT_TERM, PEAK). -/
def checkCeiling (ceiling measured : Option Int) : CheckResult :=
  match ceiling, measured with
  | none, _ => .notApplicable
  | some _, none => .notMeasured
  | some c, some m => if m ≤ c then .pass else .fail

/-- R107: RELATIVE applies to adverts and promotions under a relative limit. -/
def relativeApplies (p : Profile) (cls : SegClass) : Bool :=
  (cls == .advert || cls == .promotion) && p.relative.isSome

/-- R107: RELATIVE. -/
def checkRelative (p : Profile) (cls : SegClass) (integrated : Option Int) (ref : Option Reference) :
    CheckResult :=
  if relativeApplies p cls then
    match p.relative, integrated, ref with
    | some limit, some c, some r => if c - r.code ≤ (limit : Int) then .pass else .fail
    | _, _, _ => .notMeasured
  else .notApplicable

/-- R107: the reference used. -/
def referenceUsed (p : Profile) (cls : SegClass) (ref : Option Reference) : Option Reference :=
  if relativeApplies p cls then ref else none

/-- R108: CAPTION_COVERAGE. -/
def checkCoverage (p : Profile) (audible covered : Nat) : CheckResult :=
  if p.captions then
    if audible = 0 then .notMeasured
    else if p.minCoverage * audible ≤ covered * 1000 then .pass else .fail
  else .notApplicable

/-- R109: CAPTION_GAP. -/
def checkGap (p : Profile) (gapCount : Nat) : CheckResult :=
  if p.captions && p.maxGap.isSome then
    if gapCount = 0 then .pass else .fail
  else .notApplicable

/-- The six results in order. -/
def Checks.list (c : Checks) : List CheckResult :=
  [c.loudness, c.shortTerm, c.peak, c.relative, c.coverage, c.captionGap]

/-- R110: the overall verdict. -/
def verdictOf (c : Checks) : CheckResult :=
  if c.list.contains .fail then .fail
  else if c.list.contains .pass then .pass
  else .notMeasured

/-- R103, R104: all six checks NOT_MEASURED. -/
def Checks.unmeasured : Checks :=
  ⟨.notMeasured, .notMeasured, .notMeasured, .notMeasured, .notMeasured, .notMeasured⟩

end Sys2Proof.Machine
end

