-- ==== Sys2Proof/Machine/Operands.lean ====
section
/-!
DEFINITION. The arguments of requests: what is refused, what is replaced by the nearest value in range, and what
a marker loads (R177, R14, R97, R22, R125).
-/

namespace Sys2Proof.Machine

/-- A value taken from an argument, and whether it was replaced (R177). -/
structure Clamped (α : Type) where
  val     : α
  changed : Bool
deriving DecidableEq, Repr

/-- The nearest number from `lo` to `hi` (R177). -/
def clampNat (lo hi n : Nat) : Clamped Nat :=
  if n < lo then ⟨lo, true⟩ else if hi < n then ⟨hi, true⟩ else ⟨n, false⟩

/-- The nearest level code from `lo` to `hi` (R177). -/
def clampInt (lo hi n : Int) : Clamped Int :=
  if n < lo then ⟨lo, true⟩ else if hi < n then ⟨hi, true⟩ else ⟨n, false⟩

/-- The value of an argument whose DEFAULT is `d` (`none`: it has no default). NONE and any other marker are not
values of it (10.8.1, R14; DEDUCED, log entry 16). -/
def argGet {α : Type} (d : Option α) : Arg α → Option α
  | .value a => some a
  | .dflt => d
  | .absent => none
  | .badMarker => none

/-- The value of an argument that accepts NONE (R96, R12). -/
def argGetOpt {α : Type} (d : Option (Option α)) : Arg α → Option (Option α)
  | .value a => some (some a)
  | .dflt => d
  | .absent => some none
  | .badMarker => none

/-- A yes-or-no byte: 00 no, 01 yes, nothing else (10.8.1, R177). -/
def yesNo (n : Nat) : Option Bool :=
  match n with
  | 0 => some false
  | 1 => some true
  | _ => none

/-- A member of `Fin (k + 1)`, the nearest one when `n` is above `k` (R14). -/
def clampFin (k n : Nat) : Clamped (Fin (k + 1)) :=
  if h : n < k + 1 then ⟨⟨n, h⟩, false⟩ else ⟨Fin.last k, true⟩

/-- A set by its mask; members beyond the last are removed (R14, R187). -/
def clampMask (k n : Nat) : Clamped (BitVec k) :=
  ⟨BitVec.ofNat k n, decide (2 ^ k ≤ n)⟩

/-- A class by its code (10.8.1). -/
def classOfCode (n : Nat) : Option SegClass :=
  match n with
  | 0 => some .programme
  | 1 => some .advert
  | 2 => some .promotion
  | 3 => some .junction
  | 4 => some .unscheduled
  | _ => none

/-- The code of a class (10.8.1). -/
def classCode : SegClass → Fin 5
  | .programme => 0
  | .advert => 1
  | .promotion => 2
  | .junction => 3
  | .unscheduled => 4

/-- A class that a descriptor may carry (R22, check 2). -/
def stageClass (n : Nat) : Option SegClass :=
  if n < 4 then classOfCode n else none

/-- A channel list entry, its channel and weight replaced where they are out of range (R14). -/
def channelEntry (e : Nat × Nat) : Clamped ChannelEntry :=
  let c := clampFin 7 e.1
  let w : Weight := if e.2 ≤ 120 then .w100 else .w141
  ⟨⟨c.val, w⟩, c.changed || !(e.2 == 100 || e.2 == 141)⟩

/-- A channel list of 1 to 6 entries (R14, case 3). -/
def channelList (l : List (Nat × Nat)) : Option (Clamped (List ChannelEntry)) :=
  if l.length = 0 ∨ 6 < l.length then none
  else
    let es := l.map channelEntry
    some ⟨es.map (·.val), es.any (·.changed)⟩

/-- The service record that CONFIGURE SERVICE writes, with whether a value was replaced; `none` where the request is
refused with BAD_ARGUMENT (R13, R14). -/
def readServiceArgs (a : ServiceArgs) : Option (Clamped ServiceRecord) := do
  let audioLane := clampFin 15 (← argGet none a.audioLane)
  let channels ← channelList (← argGet none a.channels)
  let captionLane := clampFin 15 (← argGet none a.captionLane)
  let captionStream := clampFin 7 (← argGet none a.captionStream)
  let rowMask := clampMask 16 (← argGet (some (2 ^ 16 - 1)) a.rowMask)
  let speechFloor := clampInt (-700) 0 (← argGet (some (-500)) a.speechFloor)
  let streamTimeout := clampNat 10 600 (← argGet (some 50) a.streamTimeout)
  let proxyLane := (← argGetOpt none a.proxyLane).map (clampFin 15)
  let normalKeep := clampMask 25 (← argGet (some (2 ^ 25 - 1)) a.normalKeep)
  let reducedKeep := clampMask 25
    (← argGet (some (2 ^ 0 + 2 ^ 5 + 2 ^ 10 + 2 ^ 15 + 2 ^ 20)) a.reducedKeep)
  let recording ← yesNo (← argGet none a.recording)
  let priority := clampFin 3 (← argGet none a.priority)
  let overwrite ← yesNo (← argGet none a.overwrite)
  let profile ← asFin 8 (← argGet none a.profile)
  let unschedPlanned := clampNat 600 36000 (← argGet (some 36000) a.unschedPlanned)
  let holdGuard := clampNat 0 600 (← argGet (some 100) a.holdGuard)
  some
    { val :=
        { audioLane := audioLane.val, channels := channels.val, captionLane := captionLane.val
          captionStream := captionStream.val, rowMask := rowMask.val, speechFloor := speechFloor.val
          streamTimeout := streamTimeout.val, proxyLane := proxyLane.map (·.val)
          normalKeep := normalKeep.val, reducedKeep := reducedKeep.val, recording := recording
          priority := priority.val, overwrite := overwrite, profile := profile
          unschedPlanned := unschedPlanned.val, holdGuard := holdGuard.val }
      changed :=
        audioLane.changed || channels.changed || captionLane.changed || captionStream.changed
          || rowMask.changed || speechFloor.changed || streamTimeout.changed
          || (match proxyLane with | some c => c.changed | none => false)
          || normalKeep.changed || reducedKeep.changed || priority.changed
          || unschedPlanned.changed || holdGuard.changed }

/-- An optional number brought into range; NONE stays NONE (R97). -/
def clampOptInt (lo hi : Int) : Option Int → Clamped (Option Int)
  | none => ⟨none, false⟩
  | some n => ⟨some (clampInt lo hi n).val, (clampInt lo hi n).changed⟩

/-- An optional number brought into range; NONE stays NONE (R97). -/
def clampOptNat (lo hi : Nat) : Option Nat → Clamped (Option Nat)
  | none => ⟨none, false⟩
  | some n => ⟨some (clampNat lo hi n).val, (clampNat lo hi n).changed⟩

/-- The profile that WRITE PROFILE stores, with whether a value was replaced; `none` where a marker or a yes-or-no
byte is not one of its field's values (R96, R97). -/
def readProfileArgs (a : ProfileArgs) : Option (Clamped Profile) := do
  let d := Profile.default
  let target := clampInt (-700) 0 (← argGet (some d.target) a.target)
  let tolerance := clampNat 0 100 (← argGet (some d.tolerance) a.tolerance)
  let shortTerm := clampOptInt (-700) 50 (← argGetOpt (some d.shortTerm) a.shortTerm)
  let peak := clampOptInt (-600) 0 (← argGetOpt (some d.peak) a.peak)
  let relative := clampOptNat 0 100 (← argGetOpt (some d.relative) a.relative)
  let captions ← yesNo (← argGet (some 0) a.captions)
  let minCoverage := clampNat 0 1000 (← argGet (some d.minCoverage) a.minCoverage)
  let maxGap := clampOptNat 1 6000 (← argGetOpt (some d.maxGap) a.maxGap)
  let overrun := clampNat 0 36000 (← argGet (some d.overrun) a.overrun)
  some
    { val :=
        { target := target.val, tolerance := tolerance.val, shortTerm := shortTerm.val
          peak := peak.val, relative := relative.val, captions := captions
          minCoverage := minCoverage.val, maxGap := maxGap.val, overrun := overrun.val }
      changed :=
        target.changed || tolerance.changed || shortTerm.changed || peak.changed
          || relative.changed || minCoverage.changed || maxGap.changed || overrun.changed }

/-- The three reserves and the threshold as stored. -/
structure ReserveSetting where
  reserve0  : Nat
  reserve1  : Nat
  reserve2  : Nat
  threshold : Nat
deriving DecidableEq, Repr

/-- What SET RESERVES stores in a store of `slots` slots: each value in range, then reserve[1] raised to reserve[2] and
reserve[0] to reserve[1] (R125). -/
def readReserveArgs (slots : Nat) (a : ReserveArgs) : Option (Clamped ReserveSetting) := do
  let r0 ← argGet (some 2048) a.reserve0
  let r1 ← argGet (some 1024) a.reserve1
  let r2 ← argGet (some 256) a.reserve2
  let th ← argGet (some (slots / 2)) a.threshold
  let c2 := min r2 slots
  let c1 := max (min r1 slots) c2
  let c0 := max (min r0 slots) c1
  let ct := (clampNat 1024 slots th).val
  some ⟨⟨c0, c1, c2, ct⟩, !(c0 == r0 && c1 == r1 && c2 == r2 && ct == th)⟩

/-- The slot count that CONFIGURE STORE stores: the nearest multiple of 4096 from 4096 to 65536, the higher one
half-way (R120). -/
def storeCount (n : Nat) : Clamped Nat :=
  let c := if n < 4096 then 4096 else if 65536 < n then 65536 else (n + 2048) / 4096 * 4096
  ⟨c, c != n⟩

/-- The planned duration a descriptor stores (R22). -/
def plannedDuration (n : Nat) : Clamped Nat := clampNat 1 864000 n

/-- The timer duration a TAKE stores (R159). -/
def takeDuration (a : Arg Nat) : Option (Clamped Nat) :=
  (argGet (some 1200) a).map (clampNat 10 36000)

end Sys2Proof.Machine
end

