-- ==== Sys2Proof/Machine/Layout.lean ====
section
/-!
DEFINITION. The byte layouts that a card sees (10.2, 10.8): frames and their CRC, the compliance record, the notice
record, the chunk payload, and the payload of a response where the manual fixes it.
-/

namespace Sys2Proof
namespace Machine

/-! ### Integers and fields (10.8.1) -/

/-- An unsigned number in `k` bytes, most significant byte first. -/
def be : Nat → Nat → List Byte
  | 0, _ => []
  | k + 1, n => BitVec.ofNat 8 (n / 256 ^ k) :: be k n

/-- The number that bytes spell, most significant byte first. -/
def ofBe (l : List Byte) : Nat :=
  l.foldl (fun n b => 256 * n + b.toNat) 0

/-- A signed number in 2 bytes, two's complement. -/
def be16 (c : Int) : List Byte := be 2 (BitVec.ofInt 16 c).toNat

/-- The signed number that 2 bytes spell. -/
def ofBe16 (l : List Byte) : Int := (BitVec.ofNat 16 (ofBe l)).toInt

/-- A level code that may be NONE (8000 hex). -/
def codeOrNone (c : Option Int) : List Byte :=
  match c with
  | some c => be16 c
  | none => be 2 0x8000

/-- A level code that may be NOT_MEASURED (8001 hex). -/
def codeOrMissing (c : Option Int) : List Byte :=
  match c with
  | some c => be16 c
  | none => be 2 0x8001

/-- A segment id field: presence byte and id. -/
def idField (id : Option Nat) : List Byte :=
  match id with
  | some n => 1 :: be 4 n
  | none => be 5 0

/-- An MI field that may be UNSET. -/
def miField (m : Option Mi) : List Byte :=
  match m with
  | some n => 0 :: be 5 n
  | none => 1 :: be 5 0

/-- A service byte, FF hex for no service. -/
def svcField (i : Option Svc) : Byte :=
  match i with
  | some s => BitVec.ofNat 8 s.val
  | none => 0xFF

/-- A yes-or-no byte. -/
def boolByte (b : Bool) : Byte := if b then 1 else 0

/-- `l` brought to `n` bytes with zeros. -/
def padTo (n : Nat) (l : List Byte) : List Byte := l ++ List.replicate (n - l.length) 0

/-! ### The CRC (R172) -/

/-- R172: the register after one bit step. -/
def crcShift (r : BitVec 16) : BitVec 16 :=
  if r.msb then (r <<< 1) ^^^ 0x1021#16 else r <<< 1

/-- R172: the register after `n` bit steps. -/
def crcShifts : Nat → BitVec 16 → BitVec 16
  | 0, r => r
  | n + 1, r => crcShifts n (crcShift r)

/-- R172: the register after a byte has entered it. -/
def crcByte (r : BitVec 16) (b : Byte) : BitVec 16 :=
  crcShifts 8 (r ^^^ (b.setWidth 16 <<< 8))

/-- R172: the CRC of bytes in the order sent. -/
def crcOf (l : List Byte) : BitVec 16 := l.foldl crcByte 0xFFFF#16

/-- Bytes with their CRC behind them (R172). -/
def withCrc (l : List Byte) : List Byte := l ++ be 2 (crcOf l).toNat

/-! ### Request frames (R171, 10.8.2) -/

/-- The largest payload length of a request frame (R171). -/
def requestPayloadMax : Nat := 4096

/-- The largest number of bytes of a request frame (R171). -/
def requestFrameMax : Nat := 4102

/-- R171: the request of a frame that passes every check. -/
def parseFrame (l : List Byte) : Option Request :=
  let len := ofBe ((l.drop 2).take 2)
  if l.length < 6 then none
  else if requestPayloadMax < len then none
  else if l.length ≠ 6 + len then none
  else if be 2 (crcOf (l.take (4 + len))).toNat ≠ l.drop (4 + len) then none
  else some ⟨l.getD 0 0, l.getD 1 0, (l.drop 4).take len⟩

/-! ### Enumerations (10.8.1, 10.8.4) -/

/-- The code of a closure cause. -/
def causeCode : Cause → Byte
  | .next => 0
  | .overrun => 1
  | .rollover => 2
  | .stop => 3
  | .reset => 4
  | .skipped => 5

/-- The code of a check result or a verdict. -/
def resultCode : CheckResult → Byte
  | .pass => 0
  | .fail => 1
  | .notMeasured => 2
  | .notApplicable => 3

/-- The kind code of a notice. -/
def noticeCode : NoticeKind → Nat
  | .segmentClosed => 0
  | .violation => 1
  | .captionGap => 2
  | .captionStreamLost => 3
  | .captionStreamRestored => 4
  | .inputAbsent => 5
  | .inputRestored => 6
  | .scheduleOverrun => 7
  | .recordingGap => 8
  | .unarchivedOverwrite => 9
  | .backlogHigh => 10
  | .backlogNormal => 11
  | .archiveTimeout => 12
  | .holdTableFull => 13
  | .logLoss => 14
  | .referenceFailed => 15
  | .referenceRestored => 16
  | .counterHalf => 17
  | .counterFull => 18

/-- Every notice kind, in the order of the codes. -/
def allNoticeKinds : List NoticeKind :=
  [.segmentClosed, .violation, .captionGap, .captionStreamLost, .captionStreamRestored, .inputAbsent,
    .inputRestored, .scheduleOverrun, .recordingGap, .unarchivedOverwrite, .backlogHigh, .backlogNormal,
    .archiveTimeout, .holdTableFull, .logLoss, .referenceFailed, .referenceRestored, .counterHalf, .counterFull]

/-- The kind number of a per-service counter. -/
def svcCounterKind : SvcCounter → Fin 12
  | .blocksBinned => 0
  | .blocksBelowGate => 1
  | .blocksAbsent => 2
  | .blocksOverRange => 3
  | .audioAbsentMi => 4
  | .captionPackets => 5
  | .captionMalformed => 6
  | .captionStreamLosses => 7
  | .chunksSealed => 8
  | .chunksNotRecorded => 9
  | .unarchivedOverwrites => 10
  | .segmentsFailed => 11

/-- The kind number of a counter. -/
def counterKind : Counter → Nat
  | .service k _ => (svcCounterKind k).val
  | .archiveTimeouts => 12
  | .logRecordsLost => 13
  | .framesDiscarded _ => 14

/-- The second detail byte of a counter notice. -/
def counterOwner : Counter → Byte
  | .service _ s => BitVec.ofNat 8 s.val
  | .archiveTimeouts => 0xFF
  | .logRecordsLost => 0xFF
  | .framesDiscarded p => BitVec.ofNat 8 p.val

/-! ### The compliance record (10.8.3) -/

/-- The flags byte of a record. -/
def recordFlags (r : Record) : Byte :=
  (if r.late then 1 else 0) + (if r.referenceLost then 2 else 0) + (if r.incomplete then 4 else 0)

/-- The hold byte of a record. -/
def holdByte : HoldField → Byte
  | .none => 0xFF
  | .unavailable => 0xFE
  | .hold n => BitVec.ofNat 8 n.val

/-- The 100 bytes of a record. -/
def recordBytes (r : Record) : List Byte :=
  be 6 r.seq ++ be 1 r.svc.val ++ be 1 (classCode r.cls).val ++ be 1 r.profile.val ++ [causeCode r.cause]
    ++ [recordFlags r] ++ idField r.id ++ be 5 r.stagedStart ++ be 5 r.actualStart ++ be 5 r.endMi
    ++ [holdByte r.hold] ++ be 4 r.positions ++ be 4 r.binned ++ be 4 r.belowGate ++ be 4 r.excluded
    ++ be 4 r.overRange ++ codeOrMissing r.integrated ++ codeOrNone r.maxMomentary ++ codeOrNone r.maxShortTerm
    ++ codeOrMissing r.peak ++ codeOrNone (r.refUsed.map (·.code)) ++ be 6 ((r.refUsed.map (·.seq)).getD 0)
    ++ be 4 r.judged ++ be 4 r.audible ++ be 4 r.covered ++ be 4 r.gapCount ++ be 4 r.longestGap
    ++ be 4 r.streamLost ++ r.checks.list.map resultCode ++ [resultCode r.verdict] ++ be 1 r.lostBefore

/-! ### The notice record (10.8.4) -/

/-- The detail of a notice, before its unused bytes. -/
def detailBytes : Detail → List Byte
  | .nothing => []
  | .sequence n => be 6 n
  | .gap id first => idField id ++ be 5 first
  | .captionStream l st => be 1 l ++ be 1 st
  | .audioLane l => be 1 l
  | .segment id => idField id
  | .priority p => be 1 p
  | .lostChunk slot start => be 2 slot ++ be 5 start
  | .backlog b t => be 4 b ++ be 4 t
  | .take slot token => be 2 slot ++ be 2 token
  | .counter c => be 1 (counterKind c) ++ [counterOwner c]

/-- The 24 bytes of a notice record. -/
def noticeBytes (r : NoticeRecord) : List Byte :=
  be 1 (noticeCode r.notice.kind) ++ [svcField r.notice.svc] ++ miField r.notice.mi
    ++ padTo 12 (detailBytes r.notice.detail) ++ be 4 r.droppedBefore

/-! ### A route (R183) -/

/-- R183, 10.8.1: the five fields of a route as stored. -/
def routeBytes (r : Route) : List Byte :=
  [boolByte r.enabled]
    ++ be 1 (match r.kind with
      | none => 255
      | some k => noticeCode k)
    ++ be 1 r.value.toNat ++ be 1 r.mask.toNat ++ be 1 r.port.val

/-! ### The chunk payload (10.8.5) -/

/-- Bytes of the header. -/
def headerBytes : Nat := 4096

/-- Bytes of the audio area. -/
def audioBytes : Nat := 384000

/-- Places of the MI area of one MI (R131). -/
def areaPlaces : Nat := 4800

/-- Bytes of a caption packet entry. -/
def entryBytes : Nat := 48

/-- R132: the second of an offset. -/
def secondOf (o : Nat) : Nat := if o < 10 then 0 else 1

/-- R133: the caption overflow count of a chunk, of which each offset's packets beyond the caption area's end are counted. -/
def overflowCount (overflow : Vector Nat 20) : Nat := min 65535 overflow.toList.sum

/-- The payload length of a chunk of `f` frames and `p` packet entries (R137). -/
def payloadLength (f p : Nat) : Nat := headerBytes + audioBytes + 12288 * f + entryBytes * p

/-- The header of a slot's chunk; bytes beyond the fields are 0. -/
def chunkHeader (s : Slot) : List Byte :=
  let c := s.chunk
  let reduced : Nat := match s.keepUsed with
    | .normal => 0
    | .reduced => 1
  padTo headerBytes
    (be 1 s.svc.val ++ be 1 reduced
      ++ be 1 ((if s.cutShort then 1 else 0) + (if s.fillFrames then 2 else 0))
      ++ be 1 c.segments.length ++ [boolByte c.more] ++ be 5 s.start ++ be 5 c.first ++ be 5 c.endMi
      ++ be 4 (s.sealNo.getD 0) ++ be 4 c.keep.toNat ++ be 4 c.absent.toNat
      ++ padTo 40 (c.segments.flatMap idField) ++ be 1 c.frames.length ++ be 2 c.packets.length ++ be 2 (overflowCount c.overflow)
      ++ be 4 audioBytes ++ be 4 (12288 * c.frames.length) ++ be 4 (entryBytes * c.packets.length)
      ++ padTo 100 (c.frames.flatMap fun f => be 1 (secondOf f.offset) ++ be 1 f.position))

/-- The MI area of one MI. -/
def audioArea (places : List (Int × Int)) : List Byte :=
  padTo (4 * areaPlaces) (places.flatMap fun p => be16 p.1 ++ be16 p.2)

/-- A caption packet entry. -/
def packetEntry (p : StoredPacket) : List Byte :=
  let untilErased : Nat := match p.packet.duration with
    | none => 128
    | some _ => 0
  padTo entryBytes
    (be 1 (p.offset + untilErased) ++ be 1 p.packet.kind ++ be 1 p.packet.row ++ be 1 p.packet.count
      ++ be 2 (p.packet.duration.getD 0) ++ p.packet.chars.take 42)

/-- The payload of a slot's chunk. -/
def chunkPayload (s : Slot) : List Byte :=
  chunkHeader s ++ s.chunk.audio.toList.flatMap audioArea ++ s.chunk.frames.flatMap (·.bytes)
    ++ s.chunk.packets.flatMap packetEntry

/-- R140, R161: the payload bytes that a read of `length` bytes from `offset` returns. -/
def payloadRead (s : Slot) (offset length : Nat) : List Byte :=
  (((chunkPayload s).take s.length).drop offset).take length

/-! ### Responses (R180, 10.8.2) -/

/-- The value of a status (R180). -/
def statusCode : Status → Byte
  | .ok => 0x00
  | .clamped => 0x01
  | .busy => 0x02
  | .notPermitted => 0x03
  | .badArgument => 0x04
  | .full => 0x05
  | .empty => 0x06
  | .order => 0x07
  | .conflict => 0x08
  | .notFound => 0x09
  | .gone => 0x0A
  | .tooLate => 0x0B
  | .state => 0x0C
  | .fixed => 0x0D

end Machine

/-- FREE VALUE. The payload of an answer for which the manual does not fix the layout of every field (10.8.1; log
entry 8). -/
opaque Config.answerLayout : Machine.Answer → List Byte

namespace Machine

/-- The payload of an answer. Where the manual fixes the layout of every field it is that layout; the layout of the other
answers is a free value (DESIGN CHOICE, log entry 8). The late indication of STAGE and GROUP STAGE, and the repeated mark of a
CONFIRM that is answered OK, are one byte in every answer that may carry them, 00 where there is nothing to mark (DESIGN CHOICE,
log entry 28). -/
def answerBytes : Answer → List Byte
  | .nothing => []
  | .late b => [boolByte b]
  | .member i => be 1 i.val
  | .mark m => be 6 m
  | .record r lastWritten mark => recordBytes r ++ be 6 lastWritten ++ be 6 mark
  | .logGone oldest lastWritten mark => be 6 oldest ++ be 6 lastWritten ++ be 6 mark
  | .logNotFound lastWritten mark => be 6 lastWritten ++ be 6 mark
  | .store n th r0 r1 r2 => be 4 n ++ be 4 th ++ be 4 r0 ++ be 4 r1 ++ be 4 r2
  | .reserves r0 r1 r2 th => be 4 r0 ++ be 4 r1 ++ be 4 r2 ++ be 4 th
  | .repeated b => [boolByte b]
  | .notice r => noticeBytes r
  | .route r => routeBytes r
  | a => Config.answerLayout a

/-- R174, R172, 10.8.2: the response frame as it goes out on the link. -/
def responseFrame (r : Response) : List Byte :=
  let payload := answerBytes r.answer
  withCrc ([r.tag, statusCode r.status] ++ be 2 payload.length ++ payload)

end Machine
end Sys2Proof
end

