-- ==== Sys2Proof/Machine/Store.lean ====
section
/-!
DEFINITION. The recording store (7.1, 7.3, 7.5): the chunk table, its counts, the choice of a slot, the backlog, and the
requests that set the store.
-/

namespace Sys2Proof.Machine

/-! ### The chunk table

The slots that are not FREE, in rising slot number. -/

/-- The chunk table's entry of slot `n`; `none` is FREE. -/
def slotAt (n : Nat) : List (Nat × Slot) → Option Slot
  | [] => none
  | e :: es => if e.1 = n then some e.2 else slotAt n es

/-- The chunk table with slot `n` holding `x`. -/
def putSlot (n : Nat) (x : Slot) : List (Nat × Slot) → List (Nat × Slot)
  | [] => [(n, x)]
  | e :: es =>
    if e.1 < n then e :: putSlot n x es
    else if e.1 = n then (n, x) :: es
    else (n, x) :: e :: es

/-- The chunk table with slot `n` FREE. -/
def dropSlot (n : Nat) (l : List (Nat × Slot)) : List (Nat × Slot) :=
  l.filter fun e => e.1 != n

/-- The canonical form: slot numbers strictly rising. -/
def risingSlots : List (Nat × Slot) → Bool
  | [] => true
  | [_] => true
  | a :: b :: l => decide (a.1 < b.1) && risingSlots (b :: l)

/-- The lowest slot number from `n` up that a rising chunk table does not list. -/
def firstFree (n : Nat) : List (Nat × Slot) → Nat
  | [] => n
  | e :: es => if e.1 = n then firstFree (n + 1) es else if e.1 < n then firstFree n es else n

/-- The entry with the lowest seal number. -/
def lowestSeal : List (Nat × Slot) → Option (Nat × Slot)
  | [] => none
  | e :: es =>
    match lowestSeal es with
    | none => some e
    | some f => if e.2.sealNo.getD 0 ≤ f.2.sealNo.getD 0 then some e else some f

/-- The entry with the highest seal number. -/
def highestSeal : List (Nat × Slot) → Option (Nat × Slot)
  | [] => none
  | e :: es =>
    match highestSeal es with
    | none => some e
    | some f => if f.2.sealNo.getD 0 ≤ e.2.sealNo.getD 0 then some e else some f

namespace Slot

/-- The slot is FILLING. -/
def isFilling (x : Slot) : Bool := x.state == .filling

/-- The slot is SEALED. -/
def isSealed (x : Slot) : Bool := x.state == .sealed

/-- The slot is IN_TRANSFER. -/
def isInTransfer (x : Slot) : Bool := x.state == .inTransfer

/-- The slot is ARCHIVED. -/
def isArchived (x : Slot) : Bool :=
  match x.state with
  | .archived _ => true
  | .filling => false
  | .sealed => false
  | .inTransfer => false

/-- R126: an ARCHIVED slot that may be reused. -/
def isReusable (x : Slot) : Bool := x.isArchived && x.holdCount == 0

/-- R127: a SEALED slot that may be overwritten. -/
def isOverwritable (x : Slot) : Bool := x.isSealed && x.holdCount == 0

end Slot

namespace Store

/-- The slots that satisfy a test, in rising slot number. -/
def those (x : Store) (p : Slot → Bool) : List (Nat × Slot) :=
  x.slots.filter fun e => p e.2

/-- R136: the backlog, the number of SEALED slots. -/
def backlogCount (x : Store) : Nat := (x.those Slot.isSealed).length

/-- R126: the number of FREE slots. -/
def freeCount (x : Store) : Nat := x.slotCount - x.slots.length

/-- R126: R, the reusable slots. -/
def reusableCount (x : Store) : Nat := x.freeCount + (x.those Slot.isReusable).length

/-- R125: the reserve of a recording priority. -/
def reserveOf (x : Store) (p : Fin 4) : Nat :=
  match p with
  | 0 => x.reserve0
  | 1 => x.reserve1
  | 2 => x.reserve2
  | 3 => 0

/-- The slot changed in place, if it is not FREE. -/
def update (x : Store) (n : Nat) (f : Slot → Slot) : Store :=
  match slotAt n x.slots with
  | none => x
  | some e => { x with slots := putSlot n (f e) x.slots }

/-- R157: the head of the archive queue. -/
def queueHead (x : Store) : Option (Nat × Slot) := lowestSeal (x.those Slot.isSealed)

/-- R157: the tail of the archive queue. -/
def queueTail (x : Store) : Option (Nat × Slot) := highestSeal (x.those Slot.isSealed)

/-- R136: the backlog state tested; `time` is the MI in progress. -/
def testBacklog (x : Store) (time : Option Mi) : Store × List Instr :=
  let b := x.backlogCount
  match x.backlog with
  | .normal =>
    if x.threshold ≤ b then
      ({ x with backlog := .high }, [notice .backlogHigh none time (.backlog b x.threshold)])
    else (x, [])
  | .high =>
    if b ≤ x.threshold - 256 then
      ({ x with backlog := .normal }, [notice .backlogNormal none time (.backlog b x.threshold)])
    else (x, [])

/-- What the choice of a slot comes to (R126, R127). -/
inductive Choice where
  /-- A FREE slot. -/
  | free (n : Nat)
  /-- An ARCHIVED slot of hold count 0, whose chunk is given up. -/
  | reuse (n : Nat) (old : Slot)
  /-- A SEALED slot of hold count 0, whose chunk is lost. -/
  | overwrite (n : Nat) (old : Slot)
  /-- No slot: the span is a gap (R128). -/
  | none
deriving DecidableEq, Repr

/-- R126: the reusable slot that is chosen. -/
def chooseReusable (x : Store) : Choice :=
  let n := firstFree 0 x.slots
  if n < x.slotCount then .free n
  else
    match lowestSeal (x.those Slot.isReusable) with
    | some e => .reuse e.1 e.2
    | none => .none

/-- R127: the SEALED slot that is overwritten, where the service permits it. -/
def chooseOverwrite (x : Store) (permitted : Bool) : Choice :=
  if permitted then
    match lowestSeal (x.those Slot.isOverwritable) with
    | some e => .overwrite e.1 e.2
    | none => .none
  else .none

/-- R126, R127, R139: the slot for a new chunk of a service. -/
def choose (x : Store) (r : ServiceRecord) : Choice :=
  if max32 ≤ x.sealCount then .none
  else if x.reserveOf r.priority < x.reusableCount then x.chooseReusable
  else x.chooseOverwrite r.overwrite

/-- R120: the store as CONFIGURE STORE leaves it. -/
def configured (x : Store) (slots : Nat) : Store :=
  { x with
    slotCount := slots, slots := [], threshold := slots / 2
    reserve0 := min x.reserve0 slots, reserve1 := min x.reserve1 slots, reserve2 := min x.reserve2 slots
    backlog := .normal }

/-- R120: some slot is FILLING, SEALED or IN_TRANSFER. -/
def inUse (x : Store) : Bool :=
  x.slots.any fun e => !e.2.isArchived

/-- R125: the store under new reserves and a new threshold. -/
def withReserves (x : Store) (r : ReserveSetting) : Store :=
  { x with reserve0 := r.reserve0, reserve1 := r.reserve1, reserve2 := r.reserve2, threshold := r.threshold }

end Store

/-- R140: the answer of a chunk review read of slot `x`. -/
def reviewAnswer (x : Option Slot) (svc : Svc) (start : Mi) (offset length : Nat) : Status × Answer :=
  match x with
  | none => (.gone, .nothing)
  | some e =>
    if e.isFilling || e.svc != svc || e.start != start then (.gone, .nothing)
    else (.ok, .review e.state e.sealNo e.length e.holdCount (payloadRead e offset length))

/-- R140, R161: a length that a data read may have. -/
def readable (length : Nat) : Bool := decide (0 < length) && decide (length ≤ 4096)

namespace State

/-- R136: the backlog state tested in the part. -/
def testBacklog (s : State) : State :=
  let r := s.store.testBacklog s.now
  { s with store := r.1 }.send r.2

/-- R144: some hold is live. -/
def anyHold (s : State) : Bool := (List.finRange 32).any fun n => s.holds[n].isSome

end State

/-- CONFIGURE STORE (R120). -/
def execConfigureStore (rq : Req) (slots : Nat) (s : State) : Result :=
  let s := s.arrive (.configureStore rq slots)
  .next
    (if s.store.inUse || s.anyHold then s.refuse rq .state
    else
      let n := storeCount slots
      let x := s.store.configured n.val
      ({ s with store := x }.send (s.store.slots.map fun e : Nat × Slot => Instr.removeEntry e.2.svc e.1 e.2.start)).respondOk rq
        n.changed (.store x.slotCount x.threshold x.reserve0 x.reserve1 x.reserve2))

/-- SET RESERVES (R125, R136). -/
def execSetReserves (rq : Req) (args : ReserveArgs) (s : State) : Result :=
  let s := s.arrive (.setReserves rq args)
  .next
    (match readReserveArgs s.store.slotCount args with
    | none => s.refuse rq .badArgument
    | some r =>
      { s with store := s.store.withReserves r.val }.testBacklog.respondOk rq r.changed
        (.reserves r.val.reserve0 r.val.reserve1 r.val.reserve2 r.val.threshold))

/-- READ CHUNK REVIEW (R140). -/
def execReadChunkReview (rq : Req) (slot svc : Nat) (start : Mi) (offset length : Nat) (s : State) : Result :=
  let s := s.arrive (.readChunkReview rq slot svc start offset length)
  .next
    (match asFin 16 svc with
    | none => s.refuse rq .badArgument
    | some i =>
      if s.store.slotCount ≤ slot ∨ readable length = false then s.refuse rq .badArgument
      else
        let a := reviewAnswer (slotAt slot s.store.slots) i start offset length
        s.respond rq a.1 a.2)

end Sys2Proof.Machine
end

