-- ==== Sys2Proof/Machine/Holds.lean ====
section
/-!
DEFINITION. The hold table (8.1): holds, and the hold counts they place on slots.
-/

namespace Sys2Proof.Machine

/-- The length of a chunk span (3.1). -/
def spanMis : Nat := 20

namespace Hold

/-- 8.1.2: the hold's span overlaps the chunk span that starts at `c`. -/
def overlaps (h : Hold) (c : Mi) : Bool := decide (h.fromMi < c + spanMis) && decide (c < h.toMi)

/-- R145: the hold covers a slot's chunk. -/
def covers (h : Hold) (x : Slot) : Bool := x.svc == h.svc && h.overlaps x.start

end Hold

/-- The live holds, in ascending hold number. -/
def liveHolds (t : Vector (Option Hold) 32) : List Hold :=
  (List.finRange 32).filterMap fun n => t[n]

/-- R130, R145: the number of live holds of a service whose span overlaps the chunk span that starts at `c`. -/
def holdsOver (t : Vector (Option Hold) 32) (i : Svc) (c : Mi) : Nat :=
  ((liveHolds t).filter fun h => h.svc == i && h.overlaps c).length

/-- R146, R147: the lowest-numbered free entry. -/
def freeEntry (t : Vector (Option Hold) 32) : Option (Fin 32) :=
  (List.finRange 32).find? fun n => t[n].isNone

/-- R145: the hold counts of the covered slots changed. -/
def Store.countHold (x : Store) (h : Hold) (f : Nat → Nat) : Store :=
  { x with
    slots := x.slots.map fun e => if h.covers e.2 then (e.1, { e.2 with holdCount := f e.2.holdCount }) else e }

/-- R146, R152: the number of slots that a hold counts. -/
def Store.heldSlots (x : Store) (h : Hold) : Nat := (x.those h.covers).length

namespace State

/-- R144 to R147: an entry becomes live. -/
def createHold (s : State) (n : Fin 32) (h : Hold) : State :=
  { s with holds := s.holds.set n (some h), store := s.store.countHold h (· + 1) }

/-- R145, R149: an entry becomes free. -/
def freeHold (s : State) (n : Fin 32) (h : Hold) : State :=
  { s with holds := s.holds.set n none, store := s.store.countHold h (· - 1) }

/-- R152: the live holds as READ HOLDS shows them. -/
def holdViews (s : State) : List HoldView :=
  (List.finRange 32).filterMap fun n => s.holds[n].map fun h => ⟨n, h, s.store.heldSlots h⟩

end State

/-- CREATE HOLD (R146). -/
def execCreateHold (rq : Req) (svc : Nat) (fromMi toMi : Mi) (s : State) : Result :=
  let s := s.arrive (.createHold rq svc fromMi toMi)
  .next
    (match asFin 16 svc with
    | none => s.refuse rq .badArgument
    | some i =>
      if toMi ≤ fromMi then s.refuse rq .badArgument
      else
        match freeEntry s.holds with
        | none => s.refuse rq .full
        | some n =>
          let h : Hold := ⟨i, fromMi, toMi, .console, false⟩
          (s.createHold n h).respond rq .ok (.holdCreated n (s.store.heldSlots h)))

/-- AUTOMATIC_HOLD_REQUEST (R147): the answer goes back to the compliance unit. -/
def execAutomaticHoldRequest (i : Svc) (fromMi toMi : Mi) (seq : Nat) (s : State) : Result :=
  let s := s.arrive (.automaticHoldRequest i fromMi toMi seq)
  .next
    (match freeEntry s.holds with
    | none => s.send [notice .holdTableFull (some i) s.now (.sequence seq), .holdAnswer none]
    | some n => (s.createHold n ⟨i, fromMi, toMi, .automatic seq, false⟩).send [.holdAnswer (some n)])

/-- RELEASE HOLD (R149). -/
def execReleaseHold (rq : Req) (hold : Nat) (s : State) : Result :=
  let s := s.arrive (.releaseHold rq hold)
  .next
    (match asFin 32 hold with
    | none => s.refuse rq .badArgument
    | some n =>
      match s.holds[n] with
      | none => s.refuse rq .notFound
      | some h =>
        if h.fixed then s.refuse rq .fixed
        else (s.freeHold n h).respond rq .ok (.holdReleased (s.store.heldSlots h)))

/-- FIX HOLD (R150). -/
def execFixHold (rq : Req) (hold : Nat) (s : State) : Result :=
  let s := s.arrive (.fixHold rq hold)
  .next
    (match asFin 32 hold with
    | none => s.refuse rq .badArgument
    | some n =>
      match s.holds[n] with
      | none => s.refuse rq .notFound
      | some h => { s with holds := s.holds.set n (some { h with fixed := true }) }.respond rq .ok .nothing)

/-- READ HOLDS (R152). -/
def execReadHolds (rq : Req) (s : State) : Result :=
  let s := s.arrive (.readHolds rq)
  .next (s.respond rq .ok (.holds (32 - (liveHolds s.holds).length) s.holdViews))

end Sys2Proof.Machine
end

