-- ==== Sys2Proof/Machine/Clips.lean ====
section
/-!
DEFINITION. The clip index (8.2): one list of entries for each service, and the pool of GAP and LOST entries.
-/

namespace Sys2Proof.Machine

/-- The places of the pool (R155). -/
def poolPlaces : Nat := 2048

/-- R153: an entry placed in a list of ascending chunk start; an entry already at its start is replaced. -/
def placeEntry (e : ClipEntry) : List ClipEntry → List ClipEntry
  | [] => [e]
  | f :: l =>
    if f.start < e.start then f :: placeEntry e l
    else if f.start = e.start then e :: l
    else e :: f :: l

namespace ClipIndex

/-- R155: the pool order without the entry of a service at a start. -/
def leavePool (x : ClipIndex) (i : Svc) (start : Mi) : ClipIndex :=
  { x with pool := x.pool.filter fun p => !(p.1 == i && p.2 == start) }

/-- R155: the oldest entry of the pool order leaves its list. -/
def dropOldest (x : ClipIndex) : ClipIndex :=
  match x.pool with
  | [] => x
  | p :: ps => ⟨x.lists.set p.1 (x.lists[p.1].filter fun e => e.start != p.2), ps⟩

/-- R155: an entry joins the tail of the pool order, after room has been made. -/
def joinPool (x : ClipIndex) (i : Svc) (start : Mi) : ClipIndex :=
  let y := if poolPlaces ≤ x.pool.length then x.dropOldest else x
  { y with pool := y.pool ++ [(i, start)] }

/-- A service's list replaced. -/
def setList (x : ClipIndex) (i : Svc) (l : List ClipEntry) : ClipIndex :=
  { x with lists := x.lists.set i l }

/-- R154: append STORED. -/
def appendStored (x : ClipIndex) (i : Svc) (slot : Nat) (start : Mi) : ClipIndex :=
  (x.leavePool i start).setList i (placeEntry ⟨start, .stored slot⟩ x.lists[i])

/-- R154, R155: append GAP. A GAP or LOST entry that it replaces leaves the pool before the pool is tested for room (DESIGN
CHOICE, log entry 31). -/
def appendGap (x : ClipIndex) (i : Svc) (start : Mi) : ClipIndex :=
  let y := (x.leavePool i start).joinPool i start
  y.setList i (placeEntry ⟨start, .gap⟩ y.lists[i])

/-- R154: the STORED entry that a request about a chunk names is in the list. -/
def hasStored (x : ClipIndex) (i : Svc) (slot : Nat) (start : Mi) : Bool :=
  x.lists[i].contains ⟨start, .stored slot⟩

/-- R154: remove. -/
def remove (x : ClipIndex) (i : Svc) (slot : Nat) (start : Mi) : ClipIndex :=
  x.setList i (x.lists[i].filter fun e => e != ⟨start, .stored slot⟩)

/-- R154, R155: mark LOST. -/
def markLost (x : ClipIndex) (i : Svc) (slot : Nat) (start : Mi) : ClipIndex :=
  if x.hasStored i slot start then
    let y := x.joinPool i start
    y.setList i (y.lists[i].map fun e => if e = ⟨start, .stored slot⟩ then ⟨start, .lost⟩ else e)
  else x

/-- R156: the entry of the chunk span that holds MI `m`. -/
def find (x : ClipIndex) (i : Svc) (m : Mi) : Option ClipEntry :=
  x.lists[i].find? fun e => e.start == chunkStartOf m

end ClipIndex

/-- R156: an entry as FIND CLIP answers it (DEDUCED where its slot has left it, log entry 23). -/
def clipAnswer (x : Store) (e : ClipEntry) : ClipView :=
  match e.kind with
  | .gap => .gap e.start
  | .lost => .lost e.start
  | .stored n =>
    match slotAt n x.slots with
    | some y => .stored e.start n (some y.state) y.sealNo y.holdCount
    | none => .stored e.start n none none 0

/-- APPEND_STORED (R154). -/
def execAppendStored (i : Svc) (slot : Nat) (start : Mi) (s : State) : Result :=
  let s := s.arrive (.appendStored i slot start)
  .next { s with clips := s.clips.appendStored i slot start }

/-- APPEND_GAP (R154, R155). -/
def execAppendGap (i : Svc) (start : Mi) (s : State) : Result :=
  let s := s.arrive (.appendGap i start)
  .next { s with clips := s.clips.appendGap i start }

/-- REMOVE_ENTRY (R154). -/
def execRemoveEntry (i : Svc) (slot : Nat) (start : Mi) (s : State) : Result :=
  let s := s.arrive (.removeEntry i slot start)
  .next { s with clips := s.clips.remove i slot start }

/-- MARK_LOST (R154, R155). -/
def execMarkLost (i : Svc) (slot : Nat) (start : Mi) (s : State) : Result :=
  let s := s.arrive (.markLost i slot start)
  .next { s with clips := s.clips.markLost i slot start }

/-- FIND CLIP (R156). -/
def execFindClip (rq : Req) (svc : Nat) (mi : Mi) (s : State) : Result :=
  let s := s.arrive (.findClip rq svc mi)
  .next
    (match asFin 16 svc with
    | none => s.refuse rq .badArgument
    | some i =>
      match s.clips.find i mi with
      | none => s.refuse rq .notFound
      | some e => s.respond rq .ok (.clip (clipAnswer s.store e)))

end Sys2Proof.Machine
end

