-- ==== Sys2Proof/Machine/Recorder.lean ====
section
/-!
DEFINITION. The recorder (7.2 to 7.6): the run, spans and their boundaries, the filling of a chunk, the seal and the cut.
-/

namespace Sys2Proof.Machine

/-! ### The contents of a chunk (7.4) -/

/-- The chunk of a slot just allocated (R130): the audio area zero, the other areas empty. -/
def Chunk.empty (first : Mi) (keep : BitVec 25) : Chunk where
  audio := Vector.replicate 20 []
  frames := []
  packets := []
  overflow := Vector.replicate 20 0
  absent := 0
  first := first
  endMi := first
  segments := []
  more := false
  keep := keep

namespace Chunk

/-- R131: the samples that a sample frame gives the downmix. -/
def downmix (channels : List ChannelEntry) (frame : SampleFrame) : Int × Int :=
  let left := channels.head?
  let right := match channels with
    | _ :: e :: _ => some e
    | _ => left
  let top (e : Option ChannelEntry) : Int := match e with
    | none => 0
    | some e => frame.getD e.channel.val 0 / 256
  (top left, top right)

/-- R131: a sample frame of the MI at an offset; beyond the 4800th it is not stored. -/
def addFrame (c : Chunk) (o : Fin 20) (p : Int × Int) : Chunk :=
  if c.audio[o].length < areaPlaces then { c with audio := c.audio.set o (c.audio[o] ++ [p]) } else c

/-- R131, R135: the MI at an offset is absent: its area is zero, and it is in the absent set. -/
def markAbsent (c : Chunk) (o : Fin 20) : Chunk :=
  { c with audio := c.audio.set o [], absent := c.absent ||| (BitVec.twoPow 20 o.val) }

/-- R132: a frame of a position is stored for a second. -/
def hasFrame (c : Chunk) (second position : Nat) : Bool :=
  c.frames.any fun f => secondOf f.offset == second && f.position == position

/-- R132: a proxy frame of the MI at an offset. -/
def addProxy (c : Chunk) (o : Nat) (f : ProxyFrame) : Chunk :=
  if f.valid && c.keep.getLsbD f.position && !c.hasFrame (secondOf o) f.position && decide (c.frames.length < 50) then
    { c with frames := c.frames ++ [⟨o, f.position, f.bytes⟩] }
  else c

/-- R133: a caption packet of the MI at an offset. -/
def addPacket (c : Chunk) (stream : Fin 8) (o : Fin 20) (p : CaptionPacket) : Chunk :=
  if p.stream ≠ stream.val then c
  else if c.packets.length < 512 then { c with packets := c.packets ++ [⟨o.val, p⟩] }
  else { c with overflow := c.overflow.set o (c.overflow[o] + 1) }

/-- R138, R131, R135: input of the `n` first offsets alone; what the others left is discarded. -/
def keepBelow (c : Chunk) (n : Nat) : Chunk :=
  { c with
    audio := Vector.ofFn fun o : Fin 20 => if o.val < n then c.audio[o] else []
    frames := c.frames.filter fun f => decide (f.offset < n)
    packets := c.packets.filter fun p => decide (p.offset < n)
    overflow := Vector.ofFn fun o : Fin 20 => if o.val < n then c.overflow[o] else 0
    absent := c.absent &&& BitVec.ofNat 20 (2 ^ n - 1) }

/-- R132: some second that holds an MI of the recorded part [`first`, `endMi`) misses a position of the keep set. -/
def misses (c : Chunk) (start : Mi) : Bool :=
  [0, 1].any fun j =>
    decide (c.first < start + 10 * (j + 1)) && decide (start + 10 * j < c.endMi)
      && (List.range 25).any fun p => c.keep.getLsbD p && !c.hasFrame j p

/-- R134: the segment list of a recorded part, from the on-air list, with its "more" flag. -/
def segmentList (onAir : List OnAir) (first e : Mi) : List (Option Nat) × Bool :=
  let lead := match (onAir.filter fun a => decide (a.start ≤ first)).getLast? with
    | some a => a.id
    | none => none
  let rest := (onAir.filter fun a => decide (first < a.start) && decide (a.start < e)).map (·.id)
  ((lead :: rest).take 8, decide (8 < (lead :: rest).length))

end Chunk

/-! ### A service's work at the recorder -/

/-- What the recorder works on while it takes an arrival for one service: the service's state, the store, and the
messages sent so far. -/
structure Work where
  x     : RecorderSvc
  store : Store
  out   : List Instr
deriving DecidableEq, Repr

/-- What the recorder reads of the rest of the part: the service, the live holds (R130) and the MI in progress
(R136). -/
structure Around where
  svc   : Svc
  holds : Vector (Option Hold) 32
  time  : Option Mi
deriving DecidableEq, Repr

namespace Work

/-- Messages sent. -/
def say (w : Work) (ms : List Instr) : Work := { w with out := w.out ++ ms }

/-- R136: the backlog state tested. -/
def testBacklog (w : Work) (a : Around) : Work :=
  let r := w.store.testBacklog a.time
  { w with store := r.1, out := w.out ++ r.2 }

/-! #### Allocation (R126 to R130) -/

/-- R129: the recording state at the opening of a span; `m` is the MI from which it holds. -/
def setRecording (w : Work) (a : Around) (state : Recording) (m : Mi) : Work :=
  let before := w.x.state.getD .recording
  let y := { w with x := { w.x with state := some state } }
  if state = before then y
  else
    y.say (.recordingStateChanged a.svc state m (w.x.runInst.getD 0)
      :: (if state = .notRecording then
          [notice .recordingGap (some a.svc) (some m) (.priority w.x.record.priority.val)]
        else []))

/-- R130: the slot of a new chunk of the span that starts at `b`. -/
def newSlot (w : Work) (a : Around) (b : Mi) : Slot :=
  let keepUsed := match w.store.backlog with
    | .normal => KeepSet.normal
    | .high => .reduced
  { state := .filling, svc := a.svc, start := b, keepUsed := keepUsed, sealNo := none
    holdCount := holdsOver a.holds a.svc b, length := headerBytes + audioBytes, cutShort := false
    fillFrames := false
    chunk := Chunk.empty (max b (w.x.runStart.getD b)) (match keepUsed with
      | .normal => w.x.record.normalKeep
      | .reduced => w.x.record.reducedKeep) }

/-- R130: slot `n` becomes FILLING for the span that starts at `b`. -/
def fill (w : Work) (a : Around) (b : Mi) (n : Nat) : Work :=
  let y : Work :=
    { w with
      store := { w.store with slots := putSlot n (w.newSlot a b) w.store.slots }
      x := { w.x with span := some ⟨b, some n, 0⟩ } }
  y.say [.appendStored a.svc n b]

/-- R126 to R130: the span that starts at `b` opens with its allocation; `m` is the MI from which its recording state
holds. -/
def openSpan (w : Work) (a : Around) (b m : Mi) : Work :=
  match w.store.choose w.x.record with
  | .free n => (w.fill a b n).setRecording a .recording m
  | .reuse n old => ((w.say [.removeEntry old.svc n old.start]).fill a b n).setRecording a .recording m
  | .overwrite n old =>
    (((w.say
      [.markLost old.svc n old.start, increment .unarchivedOverwrites old.svc,
        notice .unarchivedOverwrite (some old.svc) (some b) (.lostChunk n old.start)]).fill a b n).testBacklog
        a).setRecording a .recording m
  | .none => { w with x := { w.x with span := some ⟨b, none, 0⟩ } }.setRecording a .notRecording m

/-! #### The end of a span (R128, R137, R139) -/

/-- R137, R132, R134: the slot of a chunk as it is sealed with seal number `k`, its recorded part ending at `e`. -/
def sealedSlot (w : Work) (s : Slot) (k : Nat) (e : Mi) (cut : Bool) : Slot :=
  let l := Chunk.segmentList w.x.onAir s.chunk.first e
  let c := { s.chunk with endMi := e, segments := l.1, more := l.2 }
  { s with
    state := .sealed
    sealNo := some k
    length := payloadLength c.frames.length c.packets.length
    cutShort := cut
    fillFrames := w.x.record.proxyLane.isSome && c.misses s.start
    chunk := c }

/-- R134: the on-air list after a seal, `b` the start of the next span (DEDUCED, log entry 14). -/
def pruneOnAir (l : List OnAir) (b : Mi) : List OnAir :=
  match (l.filter fun a => decide (a.start ≤ b)).getLast? with
  | none => []
  | some a => [a]

/-- R137: slot `n` is sealed; the recorded part ends at `e`. -/
def sealChunk (w : Work) (a : Around) (n : Nat) (s : Slot) (e : Mi) (cut : Bool) : Work :=
  let k := w.store.sealCount + 1
  { w with
    store := { w.store with sealCount := k, slots := putSlot n (w.sealedSlot s k e cut) w.store.slots }
    x := { w.x with onAir := pruneOnAir w.x.onAir (s.start + spanMis) } }.say [increment .chunksSealed a.svc]

/-- R128: a span without a slot is counted and gets its GAP entry. -/
def recordGap (w : Work) (a : Around) (start : Mi) : Work :=
  w.say [increment .chunksNotRecorded a.svc, .appendGap a.svc start]

/-- Slot `n` becomes FREE and its STORED entry is removed (R138, R139). -/
def giveUp (w : Work) (a : Around) (n : Nat) (start : Mi) : Work :=
  { w with store := { w.store with slots := dropSlot n w.store.slots } }.say [.removeEntry a.svc n start]

/-- R139: with the seal counter exhausted, a chunk ends as a gap; `first` is the first MI of its recorded part. -/
def endAsGap (w : Work) (a : Around) (n : Nat) (start first : Mi) : Work :=
  ((w.giveUp a n start).recordGap a start).setRecording a .notRecording first

/-- R137, R139: the chunk of slot `n` ends with a recorded part that holds an MI. -/
def endChunk (w : Work) (a : Around) (n : Nat) (s : Slot) (e : Mi) (cut : Bool) : Work :=
  if max32 ≤ w.store.sealCount then w.endAsGap a n s.start s.chunk.first else w.sealChunk a n s e cut

/-- R137, R128: the current span ends at its boundary. -/
def endSpan (w : Work) (a : Around) (p : Span) : Work :=
  match p.slot with
  | none => w.recordGap a p.start
  | some n =>
    match slotAt n w.store.slots with
    | none => w
    | some s => w.endChunk a n s (p.start + spanMis) false

/-! #### Input (R124, R131 to R133) -/

/-- R131: the judgment of the MI at an offset, in a filling chunk whose run starts at `first`. -/
def judge (c : Chunk) (m : Mi) (o : Fin 20) : Judgment → Chunk
  | .present _ => c
  | .absent => if c.first ≤ m then c.markAbsent o else c

/-- R131 to R133: an item of the MI `m` applied to a filling chunk (DEDUCED below the recorded part, log entry
14). -/
def applyTo (r : ServiceRecord) (c : Chunk) (m : Mi) (o : Fin 20) : RecorderItem → Chunk
  | .frame f => if c.first ≤ m then c.addFrame o (Chunk.downmix r.channels f) else c
  | .judgment j => judge c m o j
  | .packet p => c.addPacket r.captionStream o p
  | .proxy f => c.addProxy o.val f

/-- R123: the offsets whose judgment has been taken, after an item. -/
def judgedAfter (p : Span) (o : Fin 20) : RecorderItem → BitVec 20
  | .judgment _ => p.judged ||| BitVec.twoPow 20 o.val
  | .frame _ => p.judged
  | .packet _ => p.judged
  | .proxy _ => p.judged

/-- R124: an item of the current span is applied; in a gap it is discarded. -/
def applyItem (w : Work) (p : Span) (h : HeldItem) : Work :=
  match asFin 20 (h.mi - p.start) with
  | none => w
  | some o =>
    { w with
      x := { w.x with span := some { p with judged := judgedAfter p o h.item } }
      store := match p.slot with
        | none => w.store
        | some n => w.store.update n fun s => { s with chunk := applyTo w.x.record s.chunk h.mi o h.item } }

/-- R124: an item that arrives in ACTIVE: applied, held for a later span, or discarded. -/
def sort (w : Work) (h : HeldItem) : Work :=
  match w.x.span with
  | none => w
  | some p =>
    if h.mi < p.start then w
    else if h.mi < p.start + spanMis then w.applyItem p h
    else { w with x := { w.x with held := w.x.held ++ [h] } }

/-- R124: the held items are sorted again, in the order they arrived, when a span has opened. -/
def sortHeld (w : Work) : Work :=
  w.x.held.foldl sort { w with x := { w.x with held := [] } }

/-- R122, R124: an item of input arrives. -/
def takeItem (w : Work) (h : HeldItem) : Work :=
  if w.x.enable = some true then
    match w.x.run with
    | .idle => w
    | .waiting => { w with x := { w.x with held := w.x.held ++ [h] } }
    | .active => w.sort h
  else w

/-! #### Boundaries (R123) -/

/-- R123: the span whose boundary has been passed: the tick at its end and the judgment of its last MI are both
taken. -/
def passed (w : Work) : Option Span :=
  match w.x.run, w.x.span, w.x.lastTick with
  | .active, some p, some t =>
    if p.start + spanMis ≤ t ∧ p.judged.getLsbD 19 = true then some p else none
  | _, _, _ => none

/-- R123: a boundary is passed: the current span ends, the next one opens, and held input is applied to it. -/
def boundary (w : Work) (a : Around) : Work :=
  match w.passed with
  | none => w
  | some p =>
    let b := p.start + spanMis
    ((((w.endSpan a p).testBacklog a).openSpan a b b).sortHeld)

/-- R123: every boundary that has been passed, at most `fuel` of them. -/
def boundaries (a : Around) : Nat → Work → Work
  | 0, w => w
  | fuel + 1, w => if w.passed.isNone then w else boundaries a fuel (w.boundary a)

/-- R123: after an arrival, what is due comes about. -/
def settle (w : Work) (a : Around) : Work := boundaries a (w.x.held.length + 1) w

/-! #### The run (R122, R138) -/

/-- R122, R123: an on-air message. -/
def onAir (w : Work) (a : Around) (m : OnAirMsg) : Work :=
  match w.x.run with
  | .idle => w
  | .active => { w with x := { w.x with onAir := w.x.onAir ++ [⟨m.id, m.start⟩] } }
  | .waiting =>
    let y : Work :=
      { w with
        x := { w.x with
          run := .active, runStart := some m.start, runInst := some m.inst
          onAir := w.x.onAir ++ [⟨m.id, m.start⟩]
          held := w.x.held.filter fun h => decide (m.start ≤ h.mi) } }
    if w.x.enable = some true then (y.openSpan a (chunkStartOf m.start) m.start).sortHeld else y

/-- R138: every MI of the recorded part below `e` whose judgment has not arrived is completed absent. -/
def completeAbsent (p : Span) (c : Chunk) (e : Mi) : Chunk :=
  (List.finRange 20).foldl
    (fun c o =>
      if c.first ≤ p.start + o.val ∧ p.start + o.val < e ∧ p.judged.getLsbD o.val = false then c.markAbsent o else c)
    c

/-- R138: the current span cut at `e`: what input of MIs from `e` on has left in the chunk is discarded, since it was taken
before the cut only by the order of arrivals. -/
def cutSpan (w : Work) (a : Around) (p : Span) (e : Mi) : Work :=
  let last := min e (p.start + spanMis)
  match p.slot with
  | none => if max p.start (w.x.runStart.getD p.start) < last then w.recordGap a p.start else w
  | some n =>
    match slotAt n w.store.slots with
    | none => w
    | some s =>
      if s.chunk.first < last then
        w.endChunk a n { s with chunk := completeAbsent p (s.chunk.keepBelow (last - p.start)) last } last true
      else w.giveUp a n p.start

/-- R122, R138: the service's recorder after a run. The run start and the enable of the run stay as they are until the next run
started (DESIGN CHOICE, log entry 30). -/
def idle (w : Work) : Work :=
  { w with x := { w.x with run := .idle, span := none, state := none, onAir := [], held := [] } }

/-- R138: the run is cut at `e`, before the backlog is tested. -/
def cut (w : Work) (a : Around) (e : Mi) : Work :=
  match w.x.span with
  | none => w.idle
  | some p => (w.cutSpan a p e).idle

/-- R122, R138: run ended. -/
def runEnded (w : Work) (a : Around) (endMi : Option Mi) : Work :=
  match w.x.run, endMi with
  | .idle, _ => w
  | .waiting, _ => w.idle
  | .active, none => w
  | .active, some e => (w.cut a e).testBacklog a

/-- R123: an MI tick. One that finds the service IDLE does not count for a boundary of the run that starts after it (DESIGN CHOICE,
log entry 39). -/
def takeTick (w : Work) (t : Mi) : Work :=
  if w.x.run = .idle then w else { w with x := { w.x with lastTick := some t } }

end Work

/-- R122: run started. The run has taken no MI tick yet (DESIGN CHOICE, log entry 39). -/
def RecorderSvc.runStarted (x : RecorderSvc) (r : ServiceRecord) : RecorderSvc :=
  if x.run = .idle then
    { x with
      run := .waiting, runStart := none, enable := some r.recording, span := none, state := none, onAir := []
      held := [], runInst := none, lastTick := none, record := r }
  else x

/-! ### The recorder in the part -/

namespace State

/-- What the recorder reads for service `i`. -/
def around (s : State) (i : Svc) : Around := ⟨i, s.holds, s.now⟩

/-- The recorder's work for service `i` begins. -/
def work (s : State) (i : Svc) : Work := ⟨s.recorder[i], s.store, []⟩

/-- The recorder's work for service `i` is done. -/
def worked (s : State) (i : Svc) (w : Work) : State :=
  { s.setRecorder i w.x with store := w.store }.send w.out

/-- R124: an item of input of service `i`. -/
def recorderItem (s : State) (i : Svc) (m : Mi) (item : RecorderItem) : State :=
  s.worked i (((s.work i).takeItem ⟨m, item⟩).settle (s.around i))

end State

/-- RECORDER_RUN_STARTED (R122, R13). -/
def execRecorderRunStarted (i : Svc) (s : State) : Result :=
  let s := s.arrive (.recorderRunStarted i)
  .next (s.setRecorder i (s.recorder[i].runStarted s.map[i]))

/-- ON_AIR_MESSAGE (R122 to R124, R134). -/
def execOnAirMessage (i : Svc) (msg : OnAirMsg) (s : State) : Result :=
  let s := s.arrive (.onAirMessage i msg)
  .next (s.worked i (((s.work i).onAir (s.around i) msg).settle (s.around i)))

/-- RECORDER_RUN_ENDED (R122, R138). -/
def execRecorderRunEnded (i : Svc) (endMi : Option Mi) (s : State) : Result :=
  let s := s.arrive (.recorderRunEnded i endMi)
  .next (s.worked i ((s.work i).runEnded (s.around i) endMi))

/-- RECORDER_SAMPLE_FRAME (R124, R131). -/
def execRecorderSampleFrame (i : Svc) (m : Mi) (frame : SampleFrame) (s : State) : Result :=
  let s := s.arrive (.recorderSampleFrame i m frame)
  .next (s.recorderItem i m (.frame frame))

/-- RECORDER_JUDGMENT (R123, R124, R131, R135). -/
def execRecorderJudgment (i : Svc) (m : Mi) (j : Judgment) (s : State) : Result :=
  let s := s.arrive (.recorderJudgment i m j)
  .next (s.recorderItem i m (.judgment j))

/-- RECORDER_CAPTION_PACKET (R124, R133). -/
def execRecorderCaptionPacket (i : Svc) (m : Mi) (packet : CaptionPacket) (s : State) : Result :=
  let s := s.arrive (.recorderCaptionPacket i m packet)
  .next (s.recorderItem i m (.packet packet))

/-- RECORDER_PROXY_FRAME (R124, R132). -/
def execRecorderProxyFrame (i : Svc) (m : Mi) (frame : ProxyFrame) (s : State) : Result :=
  let s := s.arrive (.recorderProxyFrame i m frame)
  .next (s.recorderItem i m (.proxy frame))

/-- RECORDER_MI_TICK (R123): the tick is taken for every service. -/
def execRecorderMiTick (t : Mi) (s : State) : Result :=
  let s := s.arrive (.recorderMiTick t)
  .next (allSvcs.foldl (fun x i => x.worked i (((x.work i).takeTick t).settle (x.around i))) s)

/-- SPAN_BOUNDARY (R123): the boundary that has been passed ends the span and opens the next. -/
def execSpanBoundary (i : Svc) (s : State) : Result :=
  .next (s.worked i ((s.work i).boundary (s.around i)))

end Sys2Proof.Machine
end

