-- ==== Sys2Proof/Machine/Archive.lean ====
section
/-!
DEFINITION. The archive queue (chapter 9): takes, their tokens and timers, and how they end.
-/

namespace Sys2Proof.Machine

/-- The takes that may be in flight (R159). -/
def takePlaces : Nat := 8

/-- R158: the token counter after one more take. -/
def nextToken (n : Nat) : Nat := (n + 1) % 65536

namespace Archive

/-- R158: the take of a slot. -/
def takeOf (x : Archive) (slot : Nat) : Option Take := x.takes.find? (·.slot == slot)

/-- R158: the take of a slot has ended. -/
def endTake (x : Archive) (slot : Nat) : Archive :=
  { x with takes := x.takes.filter (·.slot != slot) }

/-- R164: every timer at a period edge. -/
def countDown (x : Archive) : Archive :=
  { x with takes := x.takes.map fun t => { t with remaining := t.remaining - 1 } }

end Archive

namespace State

/-- R158: the take of an IN_TRANSFER slot under a token, with the slot. -/
def matchedTake (s : State) (slot token : Nat) : Option (Take × Slot) :=
  match s.archive.takeOf slot, slotAt slot s.store.slots with
  | some t, some x => if x.isInTransfer && t.token == token then some (t, x) else none
  | _, _ => none

/-- R162: the confirming token of an ARCHIVED slot. -/
def confirmedToken (s : State) (slot : Nat) : Option Nat :=
  match slotAt slot s.store.slots with
  | none => none
  | some x =>
    match x.state with
    | .archived t => some t
    | .filling => none
    | .sealed => none
    | .inTransfer => none

/-- A take ends and its slot enters another state (R158). -/
def endTake (s : State) (slot : Nat) (state : SlotState) : State :=
  { s with
    archive := s.archive.endTake slot
    store := s.store.update slot fun x => { x with state := state } }

/-- R163, R164, R168: a take ends and its slot is SEALED again, in its place in the queue. -/
def returnSlot (s : State) (slot : Nat) : State := s.endTake slot .sealed

/-- R164: the take expires at an edge that begins `begun`. -/
def expireTake (s : State) (begun : Option Mi) (t : Take) : State :=
  match slotAt t.slot s.store.slots with
  | none => s
  | some x =>
    ((s.returnSlot t.slot).send
      [.counterIncrement .archiveTimeouts, notice .archiveTimeout (some x.svc) begun (.take t.slot t.token)]).testBacklog

/-- R159: the head of the queue is handed out. Its take MI is station time, and its timer counts every period edge that arrives
from then on, one already issued and on its way included (DESIGN CHOICE, log entry 32). -/
def handOut (s : State) (slot : Nat) (duration : Nat) : State :=
  let token := nextToken s.archive.tokenCounter
  { s with
    archive :=
      { takes := s.archive.takes ++ [⟨slot, token, s.now, duration, duration⟩], tokenCounter := token }
    store := s.store.update slot fun x => { x with state := .inTransfer } }

/-- R159: what the response to TAKE carries. -/
def takeView (s : State) (slot : Nat) (x : Slot) (duration : Nat) : TakeView where
  slot := slot
  token := nextToken s.archive.tokenCounter
  sealNo := x.sealNo
  svc := x.svc
  start := x.start
  length := x.length
  cutShort := x.cutShort
  fillFrames := x.fillFrames
  holdCount := x.holdCount
  duration := duration

/-- R169: a take as READ ARCHIVE STATUS lists it. -/
def takeStatus (s : State) (t : Take) : Option TakeStatus :=
  (slotAt t.slot s.store.slots).map fun x => ⟨t, x.svc, x.start, x.sealNo⟩

/-- R169: the answer of READ ARCHIVE STATUS. -/
def archiveView (s : State) : ArchiveView where
  queueLength := s.store.backlogCount
  head := s.store.queueHead.map fun e => (e.1, e.2.sealNo.getD 0)
  tail := s.store.queueTail.map fun e => (e.1, e.2.sealNo.getD 0)
  backlogState := s.store.backlog
  threshold := s.store.threshold
  inFlight := s.archive.takes.length
  takes := s.archive.takes.filterMap s.takeStatus
  lastToken := s.archive.tokenCounter

end State

/-- TAKE (R159). A marker that the duration does not allow is found before the takes in flight and the queue are looked at
(DESIGN CHOICE, log entry 33). -/
def execTake (rq : Req) (duration : Arg Nat) (s : State) : Result :=
  let s := s.arrive (.take rq duration)
  .next
    (match takeDuration duration with
    | none => s.refuse rq .badArgument
    | some d =>
      if takePlaces ≤ (s.store.those Slot.isInTransfer).length then s.refuse rq .full
      else
        match s.store.queueHead with
        | none => s.refuse rq .empty
        | some e =>
          (s.handOut e.1 d.val).testBacklog.respondOk rq d.changed (.take (s.takeView e.1 e.2 d.val)))

/-- READ CHUNK (R161). -/
def execReadChunk (rq : Req) (slot token offset length : Nat) (s : State) : Result :=
  let s := s.arrive (.readChunk rq slot token offset length)
  .next
    (if s.store.slotCount ≤ slot ∨ readable length = false then s.refuse rq .badArgument
    else
      match s.matchedTake slot token with
      | none => s.refuse rq .tooLate
      | some (t, x) => s.respond rq .ok (.chunk x.sealNo x.length t.remaining (payloadRead x offset length)))

/-- CONFIRM (R162). -/
def execConfirm (rq : Req) (slot token : Nat) (s : State) : Result :=
  let s := s.arrive (.confirm rq slot token)
  .next
    (if s.store.slotCount ≤ slot then s.refuse rq .badArgument
    else
      match s.matchedTake slot token with
      | some _ => (s.endTake slot (.archived token)).respond rq .ok (.repeated false)
      | none =>
        if s.confirmedToken slot = some token then s.respond rq .ok (.repeated true) else s.refuse rq .tooLate)

/-- RETURN (R163). -/
def execReturnTake (rq : Req) (slot token : Nat) (s : State) : Result :=
  let s := s.arrive (.returnTake rq slot token)
  .next
    (if s.store.slotCount ≤ slot then s.refuse rq .badArgument
    else
      match s.matchedTake slot token with
      | none => s.refuse rq .tooLate
      | some _ => (s.returnSlot slot).testBacklog.respond rq .ok .nothing)

/-- READ ARCHIVE STATUS (R169). -/
def execReadArchiveStatus (rq : Req) (s : State) : Result :=
  let s := s.arrive (.readArchiveStatus rq)
  .next (s.respond rq .ok (.archive s.archiveView))

/-- ARCHIVE_PERIOD_EDGE (R164): every timer is counted down, and the takes whose timer reaches 0 expire. -/
def execArchivePeriodEdge (begun : Option Mi) (s : State) : Result :=
  let s := s.arrive (.archivePeriodEdge begun)
  let s' := { s with archive := s.archive.countDown }
  .next ((s'.archive.takes.filter (·.remaining == 0)).foldl (fun x t => x.expireTake begun t) s')

/-- TAKE_TIMER_EXPIRY (R164): the take of the slot expires when its timer stands at 0. -/
def execTakeTimerExpiry (slot : Nat) (s : State) : Result :=
  .next
    (match s.archive.takeOf slot with
    | none => s
    | some t => if t.remaining = 0 then s.expireTake s.now t else s)

end Sys2Proof.Machine
end

