-- ==== Sys2Proof/Machine/Bank.lean ====
section
/-!
DEFINITION. The counter bank (11.2): increments, alerts, and the requests that read and clear them.
-/

namespace Sys2Proof.Machine

namespace CounterCell

/-- R187: the counter after an increment; its flags are set by the increment that brings it to their values. -/
def bump (c : CounterCell) : CounterCell :=
  if max32 ≤ c.value then c
  else
    { value := c.value + 1
      half := c.half || c.value + 1 == 2 ^ 31
      full := c.full || c.value + 1 == max32
      seenHalf := if c.value + 1 = 2 ^ 31 then 0 else c.seenHalf
      seenFull := if c.value + 1 = max32 then 0 else c.seenFull }

/-- R187: the alert that an increment of the counter raises. -/
def alert (c : CounterCell) : Option NoticeKind :=
  if c.value + 1 = 2 ^ 31 then some .counterHalf
  else if c.value + 1 = max32 then some .counterFull
  else none

/-- R188: the counter as READ COUNTERS shows it. -/
def view (c : CounterCell) : CounterView := ⟨c.value, c.half, c.full⟩

/-- R188: the flags that are set are seen by a port. -/
def seenBy (c : CounterCell) (p : PortNo) : CounterCell :=
  { c with
    seenHalf := if c.half then c.seenHalf ||| BitVec.twoPow 3 p.val else c.seenHalf
    seenFull := if c.full then c.seenFull ||| BitVec.twoPow 3 p.val else c.seenFull }

/-- R188: the flags that a port has seen are cleared. -/
def clearedBy (c : CounterCell) (p : PortNo) : CounterCell :=
  let h := c.half && c.seenHalf.getLsbD p.val
  let f := c.full && c.seenFull.getLsbD p.val
  { c with
    half := c.half && !h
    seenHalf := if h then 0 else c.seenHalf
    full := c.full && !f
    seenFull := if f then 0 else c.seenFull }

end CounterCell

/-- The place of a part-wide counter (11.2.1). -/
def partPlace : Counter → Fin 5
  | .service _ _ => 0
  | .archiveTimeouts => 0
  | .logRecordsLost => 1
  | .framesDiscarded p => ⟨p.val + 2, by omega⟩

/-- The service of a per-service counter. -/
def counterService : Counter → Option Svc
  | .service _ s => some s
  | .archiveTimeouts => none
  | .logRecordsLost => none
  | .framesDiscarded _ => none

/-- What a selector of the counter requests selects (R188). -/
inductive Selection where
  | service (s : Svc)
  | part
deriving DecidableEq, Repr

/-- R188: the selection of a selector. -/
def selection (n : Nat) : Option Selection :=
  match asFin 16 n with
  | some i => some (.service i)
  | none => if n = 16 then some .part else none

namespace Bank

/-- A counter. -/
def cell (x : Bank) : Counter → CounterCell
  | .service k s => x.services[s][svcCounterKind k]
  | .archiveTimeouts => x.part[partPlace .archiveTimeouts]
  | .logRecordsLost => x.part[partPlace .logRecordsLost]
  | .framesDiscarded p => x.part[partPlace (.framesDiscarded p)]

/-- A counter replaced. -/
def setCell (x : Bank) (c : Counter) (v : CounterCell) : Bank :=
  match c with
  | .service k s => { x with services := x.services.set s (x.services[s].set (svcCounterKind k) v) }
  | .archiveTimeouts => { x with part := x.part.set (partPlace .archiveTimeouts) v }
  | .logRecordsLost => { x with part := x.part.set (partPlace .logRecordsLost) v }
  | .framesDiscarded p => { x with part := x.part.set (partPlace (.framesDiscarded p)) v }

/-- R187: the notice that an increment raises, where its kind is enabled. -/
def alertNotice (x : Bank) (time : Option Mi) (c : Counter) : List Instr :=
  match (x.cell c).alert with
  | none => []
  | some k => if x.mask.getLsbD (counterKind c) then [notice k (counterService c) time (.counter c)] else []

/-- R187: an increment. -/
def add (x : Bank) (time : Option Mi) (c : Counter) : Bank × List Instr :=
  (x.setCell c (x.cell c).bump, x.alertNotice time c)

/-- The selected counters changed. -/
def change (x : Bank) (f : CounterCell → CounterCell) : Selection → Bank
  | .service i => { x with services := x.services.set i (mapVec f x.services[i]) }
  | .part => { x with part := mapVec f x.part }

/-- The selected counters, in order. -/
def selected (x : Bank) : Selection → List CounterCell
  | .service i => x.services[i].toList
  | .part => x.part.toList

/-- R188: the flags still set among selected counters, with their places. -/
def flagsOf (l : List CounterCell) : List (Nat × Bool × Bool) :=
  ((l.mapIdx fun k c => (k, c.half, c.full)).filter fun e => e.2.1 || e.2.2)

/-- R189: every counter, flag and seen mark zero; the mask is kept. -/
def zeroed (x : Bank) : Bank := { Bank.powerOn with mask := x.mask }

end Bank

/-- An increment taken by the bank (R187). -/
def State.bankAdd (s : State) (c : Counter) : State :=
  let r := s.bank.add s.now c
  { s with bank := r.1 }.send r.2

/-- COUNTER_INCREMENT (R187). -/
def execCounterIncrement (counter : Counter) (s : State) : Result :=
  let s := s.arrive (.counterIncrement counter)
  .next (s.bankAdd counter)

/-- SET ALERT MASK (R187). -/
def execSetAlertMask (rq : Req) (kinds : Nat) (s : State) : Result :=
  let s := s.arrive (.setAlertMask rq kinds)
  let m := clampMask 15 kinds
  .next ({ s with bank := { s.bank with mask := m.val } }.respondOk rq m.changed .nothing)

/-- READ COUNTERS (R188). -/
def execReadCounters (rq : Req) (selector : Nat) (s : State) : Result :=
  let s := s.arrive (.readCounters rq selector)
  .next
    (match selection selector with
    | none => s.refuse rq .badArgument
    | some x =>
      { s with bank := s.bank.change (·.seenBy rq.port) x }.respond rq .ok
        (.counters ((s.bank.selected x).map CounterCell.view)))

/-- CLEAR ALERTS (R188). -/
def execClearAlerts (rq : Req) (selector : Nat) (s : State) : Result :=
  let s := s.arrive (.clearAlerts rq selector)
  .next
    (match selection selector with
    | none => s.refuse rq .badArgument
    | some x =>
      let b := s.bank.change (·.clearedBy rq.port) x
      { s with bank := b }.respond rq .ok (.alerts (Bank.flagsOf (b.selected x))))

/-- CLEAR COUNTERS (R189). -/
def execClearCounters (rq : Req) (selector : Nat) (s : State) : Result :=
  let s := s.arrive (.clearCounters rq selector)
  .next
    (match selection selector with
    | none => s.refuse rq .badArgument
    | some x => { s with bank := s.bank.change (fun _ => CounterCell.zero) x }.respond rq .ok .nothing)

end Sys2Proof.Machine
end

