-- ==== Sys2Proof/Machine/Checker.lean ====
section
/-!
DEFINITION. The caption checker (chapter 5): packets, the stream watch, the row table, presence, and its combination
with the meter's results.
-/

namespace Sys2Proof.Machine

/-! ### Packets (5.1) -/

/-- The kind byte of a TEXT packet (10.8.5). -/
def kindText : Nat := 1

/-- The kind byte of an ERASE packet (10.8.5). -/
def kindErase : Nat := 2

/-- The kind byte of a KEEPALIVE packet (10.8.5). -/
def kindKeepalive : Nat := 3

/-- The row byte ALL (10.8.5). -/
def rowAll : Nat := 255

/-- R76: the packet is none of the malformed cases. -/
def wellFormedPacket (p : CaptionPacket) : Bool :=
  (p.kind == kindText || p.kind == kindErase || p.kind == kindKeepalive)
    && (decide (p.row < 16) || p.row == rowAll)
    && decide (p.count ≤ 42)
    && !(p.kind == kindText && p.row == rowAll)

/-- R79: the persistence that a display duration gives. -/
def persistenceOf (duration : Option Nat) : Option Nat :=
  duration.map fun d => (clampNat 1 600 d).val

/-! ### Segments at the checker (5.6) -/

namespace CaptionSegment

/-- R84: the entry of a segment just made known. -/
def ofOpened (m : SegOpened) : CaptionSegment where
  inst := m.inst
  id := m.id
  cls := m.cls
  profile := m.profile
  start := m.start
  endMi := none
  combined := 0
  judged := 0
  audible := 0
  covered := 0
  lost := 0
  gapRun := 0
  gapFirst := none
  gapCounted := false
  gapCount := 0
  longestGap := 0

/-- R87: the entry's span holds MI `m`. -/
def holds (g : CaptionSegment) (m : Mi) : Bool :=
  decide (g.start ≤ m) && (match g.endMi with
    | none => true
    | some e => decide (m < e))

/-- R91: the summary condition. -/
def finished (g : CaptionSegment) : Bool :=
  match g.endMi with
  | none => false
  | some e => decide (g.start + g.combined = e)

/-- R91: the caption summary. -/
def summary (g : CaptionSegment) : CaptionSummary where
  judged := g.judged
  audible := g.audible
  covered := g.covered
  gapCount := g.gapCount
  longestGap := g.longestGap
  streamLost := g.lost

/-- R87: the tallies after an MI result and its presence record. -/
def tally (g : CaptionSegment) (r : MiResult) (p : Presence) : CaptionSegment :=
  { g with
    combined := g.combined + 1
    judged := if r.judged then g.judged + 1 else g.judged
    audible := if r.judged && r.audible then g.audible + 1 else g.audible
    covered := if r.judged && r.audible && p.present then g.covered + 1 else g.covered
    lost := if p.lost then g.lost + 1 else g.lost }

/-- R88: the gap run ends. -/
def endRun (g : CaptionSegment) : CaptionSegment :=
  { g with gapRun := 0, gapFirst := none, gapCounted := false }

/-- R88: the gap run extends by MI `m`. -/
def extendRun (g : CaptionSegment) (m : Mi) : CaptionSegment :=
  { g with
    gapRun := g.gapRun + 1
    gapFirst := if g.gapRun = 0 then some m else g.gapFirst
    longestGap := max g.longestGap (g.gapRun + 1) }

/-- R89: the run has reached the maximum gap and is not counted yet. -/
def reachesLimit (g : CaptionSegment) (p : Profile) : Bool :=
  match p.maxGap with
  | none => false
  | some n => decide (n ≤ g.gapRun) && !g.gapCounted

/-- R89: the run is counted. -/
def countRun (g : CaptionSegment) : CaptionSegment :=
  { g with gapCount := g.gapCount + 1, gapCounted := true }

/-- R89: the notice of a counted run, where the profile requires captions. -/
def gapNotice (g : CaptionSegment) (svc : Svc) (m : Mi) (p : Profile) : List Instr :=
  if p.captions then [notice .captionGap (some svc) (some (miNext m)) (.gap g.id (g.gapFirst.getD m))] else []

/-- R87 to R89: MI result and presence record are combined into the entry. -/
def combine (g : CaptionSegment) (svc : Svc) (p : Profile) (r : MiResult) (w : Presence) :
    CaptionSegment × List Instr :=
  let t := g.tally r w
  if r.judged && r.audible then
    if w.present then (t.endRun, [])
    else
      let e := t.extendRun r.mi
      if e.reachesLimit p then (e.countRun, e.gapNotice svc r.mi p) else (e, [])
  else (t, [])

/-- R92: the entry as READ STATUS shows it. -/
def view (g : CaptionSegment) : CaptionSegmentView where
  inst := g.inst
  endMi := g.endMi
  combined := g.combined
  judged := g.judged
  audible := g.audible
  covered := g.covered
  lost := g.lost
  gapRun := g.gapRun
  gapCount := g.gapCount
  longestGap := g.longestGap

end CaptionSegment

/-! ### One service at the checker -/

namespace CheckerSvc

/-- R77: an entry of the segment list covers MI `m`. -/
def covers (x : CheckerSvc) (m : Mi) : Bool := x.segments.any (·.holds m)

/-- R83: the presence of an MI evaluated now. -/
def presentNow (x : CheckerSvc) : Bool :=
  x.stream == .live && x.record.rowMask != 0
    && (x.textSeen || (List.finRange 16).any fun r => x.record.rowMask.getLsbD r.val && x.rows[r].isSome)

/-- The stream is LOST. -/
def isLost (x : CheckerSvc) : Bool :=
  x.stream == .lostFromLive || x.stream == .lostFromWaiting

/-- R83: MI `m` is evaluated; its record joins the presence list. DESIGN CHOICE (log entry 29): it joins it even when the list
holds a record of `m` already, which R85 says does not arise. -/
def evaluate (x : CheckerSvc) (m : Mi) : CheckerSvc :=
  { x with presence := x.presence ++ [⟨m, x.presentNow, x.isLost⟩] }

/-! ### Combination (R87) -/

/-- R87: the held result that can be combined, with its presence record and its entry. -/
def due (x : CheckerSvc) : Option (MiResult × Presence × CaptionSegment) :=
  x.held.findSome? fun r =>
    match x.segments.find? (·.inst == r.inst), x.presence.find? (·.mi == r.mi) with
    | some g, some p => some (r, p, g)
    | _, _ => none

/-- R91: the summaries whose condition holds are sent, and their entries leave the list. -/
def sendSummaries (x : CheckerSvc) (svc : Svc) : CheckerSvc × List Instr :=
  ({ x with segments := x.segments.filter fun g => !g.finished },
    (x.segments.filter (·.finished)).map fun g => .captionSummaryArrival svc g.inst g.summary)

/-- R87 to R89, R91: the due result and its record are combined and removed, and the summary condition is tested. -/
def combineDue (x : CheckerSvc) (svc : Svc) (profiles : Vector Profile 8) : CheckerSvc × List Instr :=
  match x.due with
  | none => (x, [])
  | some (r, p, g) =>
    let c := g.combine svc profiles[g.profile] r p
    let y : CheckerSvc :=
      { x with
        held := x.held.erase r
        presence := x.presence.erase p
        segments := x.segments.map fun e => if e.inst = g.inst then c.1 else e }
    let w := y.sendSummaries svc
    (w.1, c.2 ++ w.2)

/-- R87: every due combination is made, in ascending order; at most `fuel` of them. -/
def combineAll (svc : Svc) (profiles : Vector Profile 8) : Nat → CheckerSvc → CheckerSvc × List Instr
  | 0, x => (x, [])
  | fuel + 1, x =>
    if x.due.isNone then (x, [])
    else
      let c := x.combineDue svc profiles
      let r := combineAll svc profiles fuel c.1
      (r.1, c.2 ++ r.2)

/-- R87, R91: after an arrival, what is due comes about. -/
def settle (x : CheckerSvc) (svc : Svc) (profiles : Vector Profile 8) : CheckerSvc × List Instr :=
  let a := x.sendSummaries svc
  let b := combineAll svc profiles x.held.length a.1
  (b.1, a.2 ++ b.2)

/-- R87, R90: an MI result. -/
def takeResult (x : CheckerSvc) (r : MiResult) : CheckerSvc :=
  if x.run = .idle ∧ x.segments.all (·.inst != r.inst) then x else { x with held := x.held ++ [r] }

/-! ### Runs and segments (R77, R84, R86, R90) -/

/-- R77: the presence records that no entry covers are discarded. -/
def discardUncovered (x : CheckerSvc) : CheckerSvc :=
  { x with presence := x.presence.filter fun p => x.covers p.mi }

/-- R77: run started. -/
def runStarted (x : CheckerSvc) (r : ServiceRecord) : CheckerSvc :=
  if x.run = .idle then
    { x.discardUncovered with
      run := .waiting, runStart := none, lastTick := none, stream := .waiting, timer := r.streamTimeout
      rows := Vector.replicate 16 none, textSeen := false, record := r }
  else x

/-- R90: instance `a` precedes instance `b`, counting back 1 to 2^31 steps as the counter of R20 runs. -/
def precedes (a b : Nat) : Bool :=
  let steps := (b + max32 - a) % max32
  decide (1 ≤ steps) && decide (steps ≤ 2 ^ 31)

/-- R77, R84, R90: segment opened. -/
def segmentOpened (x : CheckerSvc) (m : SegOpened) : CheckerSvc :=
  match x.run with
  | .idle => x
  | .waiting =>
    { x with
      run := .measuring
      runStart := some m.start
      presence := x.presence.filter fun p => decide (m.start ≤ p.mi) || x.covers p.mi
      held := x.held.filter fun r => !precedes r.inst m.inst
      segments := x.segments ++ [CaptionSegment.ofOpened m] }
  | .measuring => { x with segments := x.segments ++ [CaptionSegment.ofOpened m] }

/-- R84: segment closed, in any run state. -/
def segmentClosed (x : CheckerSvc) (m : SegClosed) : CheckerSvc :=
  { x with segments := x.segments.map fun g => if g.inst = m.inst then { g with endMi := some m.endMi } else g }

/-- R86: the first MI that the flush evaluates. -/
def flushFrom (x : CheckerSvc) : Mi :=
  match x.lastTick with
  | some t => t
  | none => x.runStart.getD 0

/-- R86: `count` MIs from `m` on are evaluated. -/
def evaluateFrom : Nat → Mi → CheckerSvc → CheckerSvc
  | 0, _, x => x
  | count + 1, m, x => evaluateFrom count (m + 1) (x.evaluate m)

/-- R86: the flush up to the end `e`; the text-seen mark is cleared after the last evaluation. -/
def flush (x : CheckerSvc) (e : Mi) : CheckerSvc :=
  let y := evaluateFrom (e - x.flushFrom) x.flushFrom x
  { y with textSeen := if x.flushFrom < e then false else x.textSeen }

/-- R77, R86: run ended. -/
def runEnded (x : CheckerSvc) (svc : Svc) (profiles : Vector Profile 8) (endMi : Option Mi) :
    CheckerSvc × List Instr :=
  match x.run, endMi with
  | .idle, _ => (x, [])
  | .waiting, _ => ({ x.discardUncovered with run := .idle }, [])
  | .measuring, none => (x, [])
  | .measuring, some e =>
    let c := (x.flush e).settle svc profiles
    ({ c.1.discardUncovered with run := .idle }, c.2)

/-! ### Packets (R75, R78 to R80) -/

/-- The notice of a stream change (R78, R81). -/
def streamNotice (x : CheckerSvc) (svc : Svc) (kind : NoticeKind) : Instr :=
  notice kind (some svc) x.lastTick (.captionStream x.record.captionLane.val x.record.captionStream.val)

/-- R78: the stream watch at a well-formed packet. -/
def streamAlive (x : CheckerSvc) : CheckerSvc :=
  { x with stream := .live, timer := x.record.streamTimeout }

/-- Every row clear. -/
def clearRows (x : CheckerSvc) : CheckerSvc := { x with rows := Vector.replicate 16 none }

/-- R79: a TEXT on its row. -/
def takeText (x : CheckerSvc) (p : CaptionPacket) : CheckerSvc :=
  match asFin 16 p.row with
  | none => x
  | some r =>
    if p.count = 0 then { x with rows := x.rows.set r none }
    else
      { x with
        rows := x.rows.set r (some ⟨persistenceOf p.duration, p.count⟩)
        textSeen := x.textSeen || x.record.rowMask.getLsbD r.val }

/-- R80: an ERASE. -/
def takeErase (x : CheckerSvc) (p : CaptionPacket) : CheckerSvc :=
  if p.row = rowAll then x.clearRows
  else
    match asFin 16 p.row with
    | none => x
    | some r => { x with rows := x.rows.set r none }

/-- R79, R80, R78: what a well-formed packet does to the rows, by its kind. -/
def takeRows (x : CheckerSvc) (p : CaptionPacket) : CheckerSvc :=
  if p.kind = kindText then x.takeText p
  else if p.kind = kindErase then x.takeErase p
  else x

/-- R75, R76, R78: a caption packet of the service's lane. -/
def takePacket (x : CheckerSvc) (svc : Svc) (p : CaptionPacket) : CheckerSvc × List Instr :=
  if x.run = .idle ∨ p.stream ≠ x.record.captionStream.val then (x, [])
  else if wellFormedPacket p then
    (x.streamAlive.takeRows p,
      increment .captionPackets svc
        :: (if x.stream = .lostFromLive then [x.streamNotice svc .captionStreamRestored] else []))
  else (x, [increment .captionMalformed svc])

/-! ### MI ticks (R81 to R83) -/

/-- R82: a row counted down; the row is cleared by its expiry at 0. -/
def countRow : Option RowText → Option RowText
  | some ⟨some n, c⟩ => some ⟨some (n - 1), c⟩
  | r => r

/-- R82: a row whose persistence has reached 0 is cleared. -/
def expireRow : Option RowText → Option RowText
  | some ⟨some 0, _⟩ => none
  | r => r

/-- R82: every occupied row is counted down, and cleared at 0. -/
def countRows (x : CheckerSvc) : CheckerSvc :=
  { x with rows := mapVec (fun r => expireRow (countRow r)) x.rows }

/-- R81: the stream timer is counted down while the stream is WAITING or LIVE. -/
def countTimer (x : CheckerSvc) : CheckerSvc :=
  if x.isLost then x else { x with timer := x.timer - 1 }

/-- R81: a stream that is not LOST and whose timer stands at 0 expires. -/
def expireStream (x : CheckerSvc) (svc : Svc) : CheckerSvc × List Instr :=
  if x.timer = 0 then
    match x.stream with
    | .live =>
      ({ x.clearRows with stream := .lostFromLive },
        [increment .captionStreamLosses svc, x.streamNotice svc .captionStreamLost])
    | .waiting => ({ x.clearRows with stream := .lostFromWaiting }, [])
    | .lostFromLive => (x, [])
    | .lostFromWaiting => (x, [])
  else (x, [])

/-- R83: the MI tick carrying `t`. -/
def takeTick (x : CheckerSvc) (svc : Svc) (profiles : Vector Profile 8) (t : Mi) : CheckerSvc × List Instr :=
  if x.run = .idle then (x, [])
  else
    let c := (x.evaluate (miPrev t)).settle svc profiles
    let y : CheckerSvc := { c.1 with textSeen := false, lastTick := some t }
    let e := y.countRows.countTimer.expireStream svc
    (e.1, c.2 ++ e.2)

/-- R92: the stream state as READ STATUS shows it. -/
def shown (x : CheckerSvc) : StreamShown :=
  match x.stream with
  | .waiting => .waiting
  | .live => .live
  | .lostFromLive => .lost
  | .lostFromWaiting => .lost

/-- R92: the caption part of READ STATUS. -/
def view (x : CheckerSvc) : CaptionView where
  run := x.run
  stream := x.shown
  timer := x.timer
  rows := x.rows
  rowMask := x.record.rowMask
  segments := x.segments.map CaptionSegment.view
  presenceCount := x.presence.length
  heldCount := x.held.length

/-- R93: the checker after a warm reset. -/
def warmReset (x : CheckerSvc) : CheckerSvc :=
  { x with
    run := .idle, runStart := none, lastTick := none, stream := .waiting, timer := 0
    rows := Vector.replicate 16 none, textSeen := false, presence := [], held := [], segments := [] }

end CheckerSvc

/-! ### The checker in the part -/

/-- A service's checker replaced, and the messages it sends. -/
def State.checkerDoes (s : State) (i : Svc) (r : CheckerSvc × List Instr) : State :=
  (s.setChecker i r.1).send r.2

/-- CHECKER_RUN_STARTED (R77, R13). -/
def execCheckerRunStarted (i : Svc) (s : State) : Result :=
  let s := s.arrive (.checkerRunStarted i)
  .next (s.setChecker i (s.checker[i].runStarted s.map[i]))

/-- CHECKER_SEGMENT_OPENED (R77, R84, R90). -/
def execCheckerSegmentOpened (i : Svc) (msg : SegOpened) (s : State) : Result :=
  let s := s.arrive (.checkerSegmentOpened i msg)
  .next (s.checkerDoes i ((s.checker[i].segmentOpened msg).settle i s.compliance.profiles))

/-- CHECKER_SEGMENT_CLOSED (R77, R84, R91). -/
def execCheckerSegmentClosed (i : Svc) (msg : SegClosed) (s : State) : Result :=
  let s := s.arrive (.checkerSegmentClosed i msg)
  .next (s.checkerDoes i ((s.checker[i].segmentClosed msg).settle i s.compliance.profiles))

/-- CHECKER_RUN_ENDED (R77, R86). -/
def execCheckerRunEnded (i : Svc) (endMi : Option Mi) (s : State) : Result :=
  let s := s.arrive (.checkerRunEnded i endMi)
  .next (s.checkerDoes i (s.checker[i].runEnded i s.compliance.profiles endMi))

/-- CHECKER_CAPTION_PACKET (R75, R76, R78 to R80). -/
def execCheckerCaptionPacket (i : Svc) (packet : CaptionPacket) (s : State) : Result :=
  let s := s.arrive (.checkerCaptionPacket i packet)
  .next (s.checkerDoes i (s.checker[i].takePacket i packet))

/-- CHECKER_MI_TICK (R81 to R83, R87): the tick is taken for every service. -/
def execCheckerMiTick (t : Mi) (s : State) : Result :=
  let s := s.arrive (.checkerMiTick t)
  .next (allSvcs.foldl (fun x i => x.checkerDoes i (x.checker[i].takeTick i x.compliance.profiles t)) s)

/-- ROW_PERSISTENCE_EXPIRY (R82): the row is cleared when its persistence stands at 0. -/
def execRowPersistenceExpiry (i : Svc) (row : Fin 16) (s : State) : Result :=
  let x := s.checker[i]
  .next (s.setChecker i { x with rows := x.rows.set row (CheckerSvc.expireRow x.rows[row]) })

/-- CAPTION_STREAM_EXPIRY (R81): the stream expires when its timer stands at 0. -/
def execCaptionStreamExpiry (i : Svc) (s : State) : Result :=
  .next
    (if s.checker[i].run = .idle then s else s.checkerDoes i (s.checker[i].expireStream i))

/-- MI_RESULT (R87, R90). -/
def execMiResult (i : Svc) (result : MiResult) (s : State) : Result :=
  let s := s.arrive (.miResult i result)
  .next (s.checkerDoes i ((s.checker[i].takeResult result).settle i s.compliance.profiles))

/-- CAPTION_COMBINATION (R87 to R89, R91): the result and the record that are due are combined. -/
def execCaptionCombination (i : Svc) (s : State) : Result :=
  .next (s.checkerDoes i (s.checker[i].combineDue i s.compliance.profiles))

/-- CAPTION_SUMMARY (R91): the summaries whose condition holds are sent. -/
def execCaptionSummary (i : Svc) (s : State) : Result :=
  .next (s.checkerDoes i (s.checker[i].sendSummaries i))

end Sys2Proof.Machine
end

