-- ==== Sys2Proof/Machine/Compliance.lean ====
section
/-!
DEFINITION. The compliance unit (chapter 6): the writing of records, the log ring, profiles, COLLECT and READ LOG.
-/

namespace Sys2Proof.Machine

/-- The places of the log ring (6.6.1). -/
def logPlaces : Nat := 4096

/-! ### Fields of a record -/

/-- R32, R103: a skipped segment needs no summary. -/
def Segment.needsSummaries (g : Segment) : Bool :=
  !(g.cause == some .skipped)

/-- R103, R104: the record is written with every check NOT_MEASURED. -/
def Segment.unjudged (g : Segment) : Bool :=
  g.cause == some .skipped || g.cause == some .reset

/-- R103, R104: the counts of a meter summary that was not received. -/
def MeterSummary.missing : MeterSummary where
  mis := 0
  absentMis := 0
  positions := 0
  binned := 0
  belowGate := 0
  excluded := 0
  overRange := 0
  histogram := Vector.replicate 150 0
  integrated := none
  maxMomentary := none
  maxShortTerm := none
  peak := none

/-- R103, R104: the counts of a caption summary that was not received. -/
def CaptionSummary.missing : CaptionSummary where
  judged := 0
  audible := 0
  covered := 0
  gapCount := 0
  longestGap := 0
  streamLost := 0

/-- R105 to R109: the six checks of a completed segment. -/
def checksOf (p : Profile) (cls : SegClass) (m : MeterSummary) (c : CaptionSummary) (ref : Option Reference) :
    Checks where
  loudness := checkLoudness p m.integrated
  shortTerm := checkCeiling p.shortTerm m.maxShortTerm
  peak := checkCeiling p.peak m.peak
  relative := checkRelative p cls m.integrated ref
  coverage := checkCoverage p c.audible c.covered
  captionGap := checkGap p c.gapCount

/-- R101 to R110: the record of a completed segment under sequence `seq`, before its hold and its "records lost"
field are known. -/
def assembleRecord (seq : Nat) (svc : Svc) (g : Segment) (p : Profile) (ref : Option Reference) : Record :=
  let m := g.meterSummary.getD MeterSummary.missing
  let c := g.captionSummary.getD CaptionSummary.missing
  let checks := if g.unjudged then Checks.unmeasured else checksOf p g.cls m c ref
  { seq := seq, svc := svc, id := g.id, cls := g.cls, profile := g.profile
    stagedStart := g.stagedStart, actualStart := g.actualStart, endMi := g.endMi.getD g.actualStart
    cause := g.cause.getD .next, late := g.late, referenceLost := g.referenceLost, incomplete := g.incomplete
    positions := m.positions, binned := m.binned, belowGate := m.belowGate, excluded := m.excluded
    overRange := m.overRange, integrated := m.integrated, maxMomentary := m.maxMomentary
    maxShortTerm := m.maxShortTerm, peak := m.peak
    refUsed := if g.unjudged then none else referenceUsed p g.cls ref
    judged := c.judged, audible := c.audible, covered := c.covered, gapCount := c.gapCount
    longestGap := c.longestGap, streamLost := c.streamLost
    checks := checks, verdict := verdictOf checks, hold := .none, lostBefore := 0 }

/-- What waits is the clearing of the references that a warm reset has placed (R118). -/
def Waiting.isClear : Waiting → Bool
  | .clearReferences => true
  | .completion _ _ => false

/-! ### The log -/

namespace Compliance

/-- R113: the sequence of the last record stored, or 0. -/
def lastWritten (x : Compliance) : Nat :=
  match x.log.getLast? with
  | none => 0
  | some r => r.seq

/-- R113: the last written minus 4095, or 1. -/
def oldestHeld (x : Compliance) : Nat :=
  max 1 (x.lastWritten - 4095)

/-- R113: the last sequence has been taken by a write. -/
def exhausted (x : Compliance) : Bool :=
  x.lastWritten == maxSequence || (match x.writing with
    | some r => r.seq == maxSequence
    | none => false)

/-- R99, R104: the references after a record is written (log entry 20). -/
def refsAfter (x : Compliance) (r : Record) : Vector (Option Reference) 16 :=
  match r.cls, r.integrated with
  | .programme, some c => if r.cause = .reset then x.refs else x.refs.set r.svc (some ⟨c, r.seq⟩)
  | _, _ => x.refs

/-- R112: the notices of a stored record. -/
def recordNotices (time : Option Mi) (r : Record) : List Instr :=
  notice .segmentClosed (some r.svc) time (.sequence r.seq)
    :: (if r.verdict = .fail then [notice .violation (some r.svc) time (.sequence r.seq)] else [])

/-- R114: the record that the storing of the next one overwrites, and whether it was uncollected. -/
def overwritten (x : Compliance) : Option (Record × Bool) :=
  if x.log.length < logPlaces then none
  else x.log.head?.map fun o => (o, decide (x.mark < o.seq))

/-- Steps 6 to 8 of R100, with R99, R112 and R114: the record is stored and its notices are raised. -/
def finish (x : Compliance) (time : Option Mi) (r : Record) : Compliance × List Instr :=
  let refs := x.refsAfter r
  match x.overwritten with
  | none =>
    ({ x with refs := refs, log := x.log ++ [{ r with lostBefore := x.loss }], loss := 0, writing := none },
      recordNotices time r)
  | some (o, uncollected) =>
    let loss := if uncollected then x.loss + 1 else x.loss
    ({ x with refs := refs, log := x.log.tail ++ [{ r with lostBefore := loss }], loss := 0, writing := none },
      (if uncollected then
        [.counterIncrement .logRecordsLost, notice .logLoss (some o.svc) time (.sequence o.seq)]
      else []) ++ recordNotices time r)

/-- R111: the request for an automatic hold of a failed record. -/
def holdRequest (guardMi : Nat) (r : Record) : Instr :=
  .automaticHoldRequest r.svc (r.actualStart - guardMi) (min miMax (r.endMi + guardMi)) r.seq

/-- Steps 1 to 5 of R100, and steps 6 to 8 when the verdict is not FAIL: a completion is taken while no write is in
progress (R113: none is written once the last sequence has been taken). -/
def beginWrite (x : Compliance) (time : Option Mi) (guardMi : Nat) (svc : Svc) (g : Segment) :
    Compliance × List Instr :=
  if x.exhausted then (x, [])
  else
    let r := assembleRecord x.nextSeq svc g x.profiles[g.profile] x.refs[svc]
    let x := { x with nextSeq := min maxSequence (x.nextSeq + 1) }
    if r.verdict = .fail then
      ({ x with writing := some r }, [increment .segmentsFailed svc, holdRequest guardMi r])
    else x.finish time r

/-- R118, R189: the messages of a write. Those of a write that a warm reset has still to see, because the clearing of the
references waits in `ws` behind it, are sent without their increments: every counter that such a write increments has been
zeroed by that reset. -/
def counted (ws : List Waiting) (ms : List Instr) : List Instr :=
  if ws.any Waiting.isClear then ms.filter fun c => (incrementOf c).isNone else ms

/-- One waiting matter is taken while no write is in progress (R100, R118). -/
def takeWaiting (x : Compliance) (time : Option Mi) (map : Vector ServiceRecord 16) :
    Waiting → Compliance × List Instr
  | .completion svc g => x.beginWrite time map[svc].holdGuard svc g
  | .clearReferences => ({ x with refs := Vector.replicate 16 none }, [])

/-- R100: the waiting matters are taken in their order, each as soon as no write is in progress; those that must wait
stay. -/
def writeAll (time : Option Mi) (map : Vector ServiceRecord 16) : List Waiting → Compliance → Compliance × List Instr
  | [], x => ({ x with waiting := [] }, [])
  | w :: ws, x =>
    if x.writing.isSome then ({ x with waiting := w :: ws }, [])
    else
      let now := x.takeWaiting time map w
      let later := writeAll time map ws now.1
      (later.1, counted ws now.2 ++ later.2)

/-- R115: the answer and effect of COLLECT of `n`. -/
def collectTo (x : Compliance) (n : Nat) : Compliance × Status :=
  if x.lastWritten < n then (x, .badArgument)
  else if n < x.mark then (x, .ok)
  else ({ x with mark := n }, .ok)

/-- R116: the answer of READ LOG for sequence `n`. -/
def readLogAnswer (x : Compliance) (n : Nat) : Status × Answer :=
  if n = 0 then (.badArgument, .nothing)
  else if n < x.oldestHeld then (.gone, .logGone x.oldestHeld x.lastWritten x.mark)
  else
    match x.log.find? (·.seq == n) with
    | some r => (.ok, .record r x.lastWritten x.mark)
    | none => (.notFound, .logNotFound x.lastWritten x.mark)

/-- R117: the compliance part of READ STATUS. -/
def view (x : Compliance) : ComplianceView where
  profiles := x.profiles
  refs := x.refs
  lastWritten := x.lastWritten
  oldestHeld := x.oldestHeld
  recordsHeld := x.log.length
  mark := x.mark
  uncollected := x.log.countP fun r => decide (x.mark < r.seq)
  writing := x.writing.map fun r => (r.seq, r.svc)
  waiting := x.waiting.countP fun w => !w.isClear

end Compliance

/-! ### The unit in the part -/

namespace State

/-- What waits at the compliance unit is taken as far as it can be (R100). -/
def settleWrites (s : State) : State :=
  let w := Compliance.writeAll s.now s.map s.compliance.waiting s.compliance
  { s with compliance := w.1 }.send w.2

/-- Completions, and other matters, taken by the compliance unit in order (R32, R100, R118). -/
def complete (s : State) (ws : List Waiting) : State :=
  { s with compliance := { s.compliance with waiting := s.compliance.waiting ++ ws } }.settleWrites

end State

/-- RECORD_WRITE (R100): the waiting completions are written, each as soon as the write before it has stored its
record. -/
def execRecordWrite (s : State) : Result :=
  .next s.settleWrites

/-- HOLD_ANSWER (R111, R100, R118): the write in progress resumes at step 6, and what waited behind it is taken. -/
def execHoldAnswer (hold : Option (Fin 32)) (s : State) : Result :=
  let s := s.arrive (.holdAnswer hold)
  .next
    (match s.compliance.writing with
    | none => s
    | some r =>
      let field := match hold with
        | some n => HoldField.hold n
        | none => .unavailable
      let w := s.compliance.finish s.now { r with hold := field }
      ({ s with compliance := w.1 }.send (Compliance.counted s.compliance.waiting w.2)).settleWrites)

/-- WRITE PROFILE (R96, R97). -/
def execWriteProfile (rq : Req) (profile : Nat) (args : ProfileArgs) (s : State) : Result :=
  let s := s.arrive (.writeProfile rq profile args)
  .next
    (match asFin 8 profile, readProfileArgs args with
    | some n, some p =>
      { s with compliance := { s.compliance with profiles := s.compliance.profiles.set n p.val } }.respondOk rq p.changed
        (.profile n p.val)
    | _, _ => s.refuse rq .badArgument)

/-- COLLECT (R115). -/
def execCollect (rq : Req) (seq : Nat) (s : State) : Result :=
  let s := s.arrive (.collect rq seq)
  let w := s.compliance.collectTo seq
  .next ({ s with compliance := w.1 }.respond rq w.2 (.mark w.1.mark))

/-- READ LOG (R116). -/
def execReadLog (rq : Req) (seq : Nat) (s : State) : Result :=
  let s := s.arrive (.readLog rq seq)
  let w := s.compliance.readLogAnswer seq
  .next (s.respond rq w.1 w.2)

end Sys2Proof.Machine
end

