-- ==== Sys2Proof/Machine/Lanes.lean ====
section
/-!
DEFINITION. The audio, caption and proxy lanes (1.2 to 1.4): what they count, judge and hand on.
-/

namespace Sys2Proof.Machine

/-- The largest frame count of a lane (R7). -/
def frameCountMax : Nat := 65535

/-- The length of a proxy frame (1.4). -/
def proxyBytes : Nat := 12288

/-- The number of frame positions of a second (1.4). -/
def proxyPositions : Nat := 25

/-- R8: the judgment of the interval in progress, were it to end now. -/
def AudioLane.judgment (l : AudioLane) : Judgment :=
  if l.broken = false ∧ 4780 ≤ l.frames ∧ l.frames ≤ 4820 then .present l.frames else .absent

/-- R7: the interval that a period edge begins. -/
def AudioLane.nextInterval (l : AudioLane) : AudioLane where
  lock := l.lock
  broken := l.lock == .notHeld
  frames := 0

namespace State

/-- An audio lane replaced. -/
def setLane (s : State) (l : Lane) (x : AudioLane) : State :=
  { s with lanes := s.lanes.set l x }

/-- R15: the services that act and whose audio lane is `l`, in ascending order. -/
def audioBound (s : State) (l : Lane) : List Svc :=
  allSvcs.filter fun i => s.acting i && s.map[i].audioLane == l

/-- R15: the services that act and whose caption lane is `l`, in ascending order. -/
def captionBound (s : State) (l : Lane) : List Svc :=
  allSvcs.filter fun i => s.acting i && s.map[i].captionLane == l

/-- R15: the services that act and whose proxy lane is `l`, in ascending order. -/
def proxyBound (s : State) (l : Lane) : List Svc :=
  allSvcs.filter fun i => s.acting i && s.map[i].proxyLane == some l

/-- The period edge of an audio lane, as it is on its way to the lane. -/
def edgeTo (l : Lane) : Instr → Option PeriodEdge
  | .lanePeriodEdge k e => if k = l then some e else none
  | _ => none

/-- R7: the MI in progress at an audio lane: while a period edge is on its way to the lane, the MI that the edge ends, since
a frame taken before the edge falls in the interval that the edge ends (DEDUCED, log entry 5). -/
def laneMi (s : State) (l : Lane) : Option Mi :=
  match s.inFlight.findSome? (edgeTo l) with
  | some e => e.tick.map miPrev
  | none => s.now

/-- The period edges on their way to an audio lane, in the order in which they were issued. -/
def edgesTo (s : State) (l : Lane) : List PeriodEdge := s.inFlight.filterMap (edgeTo l)

end State

/-- The MIs from `b` to `a`, counted backwards where `a` lies before `b`: the shorter way round the circle of 2^40 numbers. -/
def miSteps (a b : Mi) : Int := ((a : Int) - b + 2 ^ 39) % 2 ^ 40 - 2 ^ 39

/-- R9: the span has interval `k`. -/
def OpenSpan.has (p : OpenSpan) (k : Int) : Bool :=
  decide (p.first ≤ k) && (match p.upTo with
    | none => true
    | some b => decide (k < b))

/-- R9: the span ends below interval `k`, unless it has ended already. -/
def OpenSpan.endAt (k : Int) (p : OpenSpan) : OpenSpan := { p with upTo := some (p.upTo.getD k) }

/-- R9: the spans of a service after a tick that begins interval `k`, at which its state goes from `old` to `new`: an opening tick
begins a span (R27); a stopping tick ends it, and the interval that this tick ends is no longer counted, since the schedule unit
has taken the tick first (R19). -/
def spansAfter (k : Int) (old new : SvcState) (l : List OpenSpan) : List OpenSpan :=
  match old == .running, new == .running with
  | false, true => l ++ [⟨k, none⟩]
  | true, false => l.map (OpenSpan.endAt (k - 1))
  | _, _ => l

/-- The MI tick of the schedule unit, as it is on its way to it. -/
def isScheduleTick : Instr → Bool
  | .scheduleMiTick _ _ => true
  | _ => false

namespace State

/-- The interval that an MI number names, counted from the interval in progress (DEDUCED, log entry 5). -/
def intervalOf (s : State) (m : Mi) : Int := s.edges + miSteps m (s.now.getD 0)

/-- R9: the interval that a period edge ends, with the number `m`: the edges on their way to a lane are the last that were issued,
so their places say which they are. An edge that was never sent is known by its number only (DEDUCED, log entry 5). -/
def endedInterval (s : State) (l : Lane) (e : PeriodEdge) (m : Mi) : Int :=
  match (s.edgesTo l).idxOf? e with
  | some k => s.edges - (s.edgesTo l).length + k
  | none => s.intervalOf m

/-- R9: the interval that an MI tick at the schedule unit begins; likewise by its place among those on their way. -/
def begunInterval (s : State) (t : Mi) (held : Bool) : Int :=
  let ticks := s.inFlight.filter isScheduleTick
  match ticks.idxOf? (.scheduleMiTick t held) with
  | some k => s.edges - ticks.length + k + 1
  | none => s.intervalOf t

/-- R9: a run of service `i` had an open segment during interval `k` (DEDUCED, log entry 5). -/
def openDuring (s : State) (i : Svc) (k : Int) : Bool := s.openSpans[i].any (·.has k)

/-- R9: the spans of service `i` after a tick that begins interval `k` and finds the service in state `old`. -/
def noteRun (s : State) (i : Svc) (k : Int) (old : SvcState) : State :=
  { s with openSpans := s.openSpans.set i (spansAfter k old s.sched[i].state s.openSpans[i]) }

end State

/-- The view that a judgment gives (R9). -/
def viewOf : Judgment → InputView
  | .present _ => .present
  | .absent => .absent

/-- R9: the effect of the judgment of the MI that tick `t` ends on one bound service that had an open segment during it. -/
def State.noteInput (s : State) (l : Lane) (t : Mi) (j : Judgment) (i : Svc) : State :=
  let count := if j = .absent then [increment .audioAbsentMi i] else []
  if viewOf j = s.views[i] then s.send count
  else
    let kind := if j = .absent then NoticeKind.inputAbsent else NoticeKind.inputRestored
    { s with views := s.views.set i (viewOf j) }.send
      (count ++ [notice kind (some i) (some t) (.audioLane l.val)])

/-- R8: the judgment of MI `m` as it goes to the meter and the recorder of a service. -/
def judgmentMessages (m : Mi) (j : Judgment) (i : Svc) : List Instr :=
  [.meterJudgment i m j, .recorderJudgment i m j]

/-- LOCK_GAINED (R7). -/
def execLockGained (l : Lane) (s : State) : Result :=
  .next (s.setLane l { s.lanes[l] with lock := .held })

/-- LOCK_LOST (R7). -/
def execLockLost (l : Lane) (s : State) : Result :=
  .next (s.setLane l { s.lanes[l] with lock := .notHeld, broken := true })

/-- LANE_SAMPLE_FRAME (R7, R15). -/
def execLaneSampleFrame (l : Lane) (frame : SampleFrame) (s : State) : Result :=
  .next
    (match s.lanes[l].lock with
    | .notHeld => s
    | .held =>
      let s' := s.setLane l { s.lanes[l] with frames := min frameCountMax (s.lanes[l].frames + 1) }
      match s.laneMi l with
      | none => s'
      | some m =>
        s'.send ((s.audioBound l).flatMap fun i => [.meterSampleFrame i m frame, .recorderSampleFrame i m frame]))

/-- LANE_PERIOD_EDGE (R7, R8, R9, R15). -/
def execLanePeriodEdge (l : Lane) (edge : PeriodEdge) (s : State) : Result :=
  let j := s.lanes[l].judgment
  let s' := (s.arrive (.lanePeriodEdge l edge)).setLane l s.lanes[l].nextInterval
  .next
    (match edge.tick with
    | none => s'
    | some t =>
      let bound := s.audioBound l
      let noted := bound.filter fun i => s.openDuring i (s.endedInterval l edge (miPrev t))
      noted.foldl (fun x i => x.noteInput l t j i)
        (s'.send (bound.flatMap (judgmentMessages (miPrev t) j))))

/-- LANE_CAPTION_PACKET (R10, R15). -/
def execLaneCaptionPacket (l : Lane) (packet : CaptionPacket) (s : State) : Result :=
  .next
    (match s.now with
    | none => s
    | some m =>
      s.send ((s.captionBound l).flatMap fun i =>
        [.checkerCaptionPacket i packet, .recorderCaptionPacket i m packet]))

/-- R11: the valid mark as the lane hands it on. -/
def checkedFrame (f : ProxyFrame) : ProxyFrame :=
  { f with valid := f.valid && f.bytes.length == proxyBytes && decide (f.position < proxyPositions) }

/-- LANE_PROXY_FRAME (R11, R15). -/
def execLaneProxyFrame (l : Lane) (frame : ProxyFrame) (s : State) : Result :=
  .next
    (match s.now with
    | none => s
    | some m => s.send ((s.proxyBound l).map fun i => .recorderProxyFrame i m (checkedFrame frame)))

end Sys2Proof.Machine
end

