-- ==== Sys2Proof/Machine/Loudness.lean ====
section
/-!
DEFINITION. The exact arithmetic of loudness (3.3, chapters 3 and 4): the weighting filter, level codes, the gated
integration of a histogram.
-/

namespace Sys2Proof.Machine

/-! ### The weighting filter (R44) -/

/-- The five coefficients of a filter stage. -/
structure Coefficients where
  b0 : Rat
  b1 : Rat
  b2 : Rat
  a1 : Rat
  a2 : Rat

/-- R44: the shelf. -/
def shelfCoefficients : Coefficients where
  b0 := 153512486 / 100000000
  b1 := -269169619 / 100000000
  b2 := 119839281 / 100000000
  a1 := -169065929 / 100000000
  a2 := 73248077 / 100000000

/-- R44: the high-pass. -/
def highPassCoefficients : Coefficients where
  b0 := 1
  b1 := -2
  b2 := 1
  a1 := -199004745 / 100000000
  a2 := 99007225 / 100000000

/-- R44: the output of a stage for an input. -/
def StageState.output (z : StageState) (c : Coefficients) (x : Rat) : Rat :=
  c.b0 * x + c.b1 * z.x1 + c.b2 * z.x2 - c.a1 * z.y1 - c.a2 * z.y2

/-- R44: a stage after an input. -/
def StageState.after (z : StageState) (c : Coefficients) (x : Rat) : StageState where
  x1 := x
  x2 := z.x1
  y1 := z.output c x
  y2 := z.y1

/-- A stage in zero state (R45). -/
def StageState.zero : StageState := ⟨0, 0, 0, 0⟩

/-- The filter of a channel list entry in zero state (R45). -/
def EntryFilter.zero : EntryFilter := ⟨.zero, .zero⟩

/-- R44: an entry's filter after a sample, and its weighted signal. -/
def EntryFilter.step (f : EntryFilter) (sample : Int) : EntryFilter × Rat :=
  let x : Rat := sample / 8388608
  let u := f.shelf.output shelfCoefficients x
  let y := f.highPass.output highPassCoefficients u
  (⟨f.shelf.after shelfCoefficients x, f.highPass.after highPassCoefficients u⟩, y)

/-- R44, R46: an entry's filter after its samples, and the sum of the squares of its weighted signal. -/
def EntryFilter.run (f : EntryFilter) : List Int → EntryFilter × Rat
  | [] => (f, 0)
  | x :: xs =>
    let a := f.step x
    let r := a.1.run xs
    (r.1, a.2 * a.2 + r.2)

/-- The weight of a channel list entry as a number (R12). -/
def Weight.value : Weight → Rat
  | .w100 => 1
  | .w141 => 141 / 100

/-- R44, R46: the filters of a channel list after the held frames of an MI (each the samples of the list's entries, in
its order), and the sum over the entries of weight times sum of squares. -/
def filterFrames (frames : List (List Int)) : Nat → List ChannelEntry → List EntryFilter → List EntryFilter × Rat
  | _, [], _ => ([], 0)
  | k, e :: es, fs =>
    let a := (fs.head?.getD .zero).run (frames.map fun f => f.getD k 0)
    let r := filterFrames frames (k + 1) es fs.tail
    (a.1 :: r.1, e.weight.value * a.2 + r.2)

/-! ### Logarithms of ratios, exactly -/

/-- `10^e` is at most `num / den`. -/
def tenPowLe (e : Int) (num den : Nat) : Bool :=
  if 0 ≤ e then decide (10 ^ e.toNat * den ≤ num) else decide (den ≤ num * 10 ^ (-e).toNat)

/-- The greatest exponent from `e` to `e + fuel` whose power of ten is at most `num / den`, when that of `e` is. -/
def decadeFrom (num den : Nat) : Nat → Int → Int
  | 0, e => e
  | fuel + 1, e => if tenPowLe (e + 1) num den then decadeFrom num den fuel (e + 1) else e

/-- floor(log10(num / den)), for positive numbers: found upward from an estimate that lies below it, by at most the fuel. -/
def decade (num den : Nat) : Int :=
  let k : Int := (Nat.log2 num : Int) - Nat.log2 den
  decadeFrom num den (6 + k.natAbs / 100000) (k * 30103 / 100000 - 2 - k.natAbs / 1000000)

/-- The greatest `t` below `acc + 2^k` reached by adding powers of two to `acc` with `10^t · q ≤ p`. -/
def logBits (p q : Nat) : Nat → Nat → Nat
  | 0, acc => acc
  | k + 1, acc => if 10 ^ (acc + 2 ^ k) * q ≤ p then logBits p q k (acc + 2 ^ k) else logBits p q k acc

/-- floor(20000 · log10(num / den)), for positive numbers. -/
def floorLog (num den : Nat) : Int :=
  let e := decade num den
  let n := if 0 ≤ e then num else num * 10 ^ (-e).toNat
  let d := if 0 ≤ e then den * 10 ^ e.toNat else den
  20000 * e + logBits (n ^ 20000) (d ^ 20000) 15 0

/-! ### Level codes (3.3) -/

/-- The code of an exact value, given the code that it takes when a half-tenth boundary is lowered, and when it is raised,
by 0.0005 LU: where the two differ, the part's choice. -/
def pickCode (up down : Int) (exact : ExactLevel) : Int :=
  if up = down then up else if Config.nearHalfUp exact then up else down

/-- The code of an exact value whose floor in two-hundredths of a code is `v`: the nearest code, and within one
two-hundredth of a half (0.0005 LU) the part's choice. -/
def codeOf (v : Int) (exact : ExactLevel) : Int := pickCode ((v + 101) / 200) ((v + 99) / 200) exact

/-- R48, R50: the code of the loudness of a mean sub-block energy; none at 0. -/
def loudnessCode (e : Rat) : Option Int :=
  if e ≤ 0 then none
  else
    let v := floorLog e.num.toNat e.den - 1382
    some (codeOf v (.energy e))

/-- R51, R73: the peak code of a largest magnitude; none at 0. -/
def peakCode (m : Nat) : Option Int :=
  if m = 0 then none
  else
    let v := floorLog (m ^ 2) (2 ^ 46)
    some (codeOf v (.peak m))

/-! ### Bins (R49, R58) -/

/-- The number of bins of a histogram. -/
def binCount : Nat := 150

/-- R49: the bin of a block code of −700 or above. -/
def binOfCode (c : Int) : Fin 150 :=
  if h : ((c + 700) / 5).toNat < 150 then ⟨((c + 700) / 5).toNat, h⟩ else ⟨149, by omega⟩

/-! ### The gated integration (R59 to R61)

The weight of bin b is 10^(−6.975) · q^b with q = 10^(1/20). A sum of counts times weights is therefore that
constant times a whole-number combination of the powers q^0 to q^19, its 20 coordinates; since no combination with
coordinates other than 0 is 0, coordinates determine the value. -/

/-- R59: the sum of the counts. -/
def totalCount (counts : List Nat) : Nat := counts.sum

/-- The 20 coordinates of Σ n_b · q^b. -/
def coordinates (counts : List Nat) : List Nat :=
  (List.range 20).map fun i =>
    ((List.range 8).map fun k => counts.getD (20 * k + i) 0 * 10 ^ k).sum

/-- The greatest whole number whose 20th power is at most `t`, below `acc + 2^k`, from `acc` up. -/
def rootBits (t : Nat) : Nat → Nat → Nat
  | 0, acc => acc
  | k + 1, acc => if (acc + 2 ^ k) ^ 20 ≤ t then rootBits t k (acc + 2 ^ k) else rootBits t k acc

/-- floor(q^i · 10^digits). -/
def powerOfQ (digits i : Nat) : Nat :=
  rootBits (10 ^ (i + 20 * digits)) (4 * (digits + 1)) 0

/-- Σ d_i · floor(q^i · 10^digits) over the coordinates from place `i` on. -/
def evalAt (digits : Nat) : Nat → List Int → Int
  | _, [] => 0
  | i, d :: ds => (if d = 0 then 0 else d * powerOfQ digits i) + evalAt digits (i + 1) ds

/-- The combination with these coordinates is 0 or positive. A combination whose coordinates are not all 0 has a norm
of at least 1, so its magnitude is at least (10·S)^(−19), S the sum of the coordinates' magnitudes; with the digits
taken here the error of `evalAt` is smaller than that. -/
def combinationNonneg (ds : List Int) : Bool :=
  let s := (ds.map Int.natAbs).sum
  if s = 0 then true
  else decide (0 ≤ evalAt (20 * (Nat.log2 s / 3 + 2)) 0 ds)

/-- R60: a bin's centre is at or above the relative gate of a histogram of `n1` blocks with coordinates `cs`: its
weight, 10 times, is at or above the mean weight. -/
def binIncluded (n1 : Nat) (cs : List Nat) (b : Nat) : Bool :=
  combinationNonneg
    (cs.mapIdx fun i (c : Nat) => (if i = b % 20 then (10 * n1 * 10 ^ (b / 20) : Nat) else 0 : Int) - (c : Int))

/-- R60: the counts of the included bins; the others at 0. -/
def gatedCounts (counts : List Nat) : List Nat :=
  let n1 := totalCount counts
  let cs := coordinates counts
  counts.mapIdx fun b n => if n ≠ 0 ∧ binIncluded n1 cs b = true then n else 0

/-- The coordinates of the product of two combinations, `q^20` being 10. -/
def mulCoordinates (a b : List Nat) : List Nat :=
  (List.range 20).map fun k =>
    ((List.range 20).map fun i =>
      if i ≤ k then a.getD i 0 * b.getD (k - i) 0 else 10 * (a.getD i 0 * b.getD (20 + k - i) 0)).sum

/-- The coordinates of the `n`-th power of a combination, by squaring; `bits` binary places of `n` are read. -/
def powCoordinates (a : List Nat) : Nat → Nat → List Nat
  | 0, _ => 1 :: List.replicate 19 0
  | bits + 1, n =>
    let r := powCoordinates a bits (n / 2)
    if n % 2 = 0 then mulCoordinates r r else mulCoordinates a (mulCoordinates r r)

/-- R61: the mean weight of `n2` blocks with coordinates `cs` is at or above `t` two-hundredths of a code, decided exactly: its
20000th power against a power of ten. -/
def meanReaches (n2 : Nat) (cs : List Nat) (t : Int) : Bool :=
  if t + 139500 < 0 then true
  else
    combinationNonneg
      ((powCoordinates cs 15 20000).mapIdx fun i (c : Nat) =>
        (c : Int) - (if i = 0 then (n2 ^ 20000 * 10 ^ (t + 139500).toNat : Nat) else 0 : Int))

/-- The digits to which the integrated mean is bounded before it is decided exactly. -/
def integrationDigits : Nat := 30

/-- R61, conventions 3.3: the code of the mean weight when its half-tenth boundaries are moved by `shift` two-hundredths of a
code from 100, `lo` and `hi` bounding it in two-hundredths of a code: where the bounds leave it open it is decided
exactly. -/
def meanCode (n2 : Nat) (cs : List Nat) (lo hi shift : Int) : Int :=
  let a := (lo + shift) / 200
  let b := (hi + shift) / 200
  if a = b then a else if meanReaches n2 cs (200 * b - shift) then b else a

/-- R61: the integrated code of the included counts. -/
def includedCode (included : List Nat) : Int :=
  let n2 := totalCount included
  let cs := coordinates included
  let bound := (evalAt integrationDigits 0 (cs.map fun (c : Nat) => (c : Int))).toNat
  let den := n2 * 10 ^ integrationDigits
  let lo := floorLog bound den - 139500
  let hi := floorLog (bound + cs.tail.sum) den - 139500
  max (-697)
    (pickCode (meanCode n2 cs lo hi 101) (meanCode n2 cs lo hi 99) (.integrated (cs.map fun (c : Nat) => (c : Rat) / n2)))

/-- R59 to R61: the gated integration of a histogram; `none` is NOT_MEASURED. -/
def gatedIntegration (counts : List Nat) : Option Int :=
  if totalCount counts = 0 then none else some (includedCode (gatedCounts counts))

end Sys2Proof.Machine
end

