-- ==== Sys2Proof/Machine/Meter.lean ====
section
/-!
DEFINITION. The loudness meter (chapters 3 and 4): the data of an MI held until it completes, blocks and short-term
loudness, summaries, surveys and the two meter reads.
-/

namespace Sys2Proof.Machine

/-- The places of the sub-block ring (R46). -/
def ringPlaces : Nat := 30

/-! ### The survey (4.4) -/

namespace Survey

/-- R66, R67: blocks of a class are counted. -/
def counts (v : Survey) (cls : SegClass) : Bool :=
  v.state == .active && v.classes.getLsbD (classCode cls).val

/-- R66, R68: a binned block is offered. -/
def offerBin (v : Survey) (cls : SegClass) (b : Fin 150) : Survey :=
  if v.counts cls then
    let n := min max32 (v.bins[b] + 1)
    { v with bins := v.bins.set b n, saturated := v.saturated || n == max32 }
  else v

/-- R67, R68: a below-gate block is offered. -/
def offerBelow (v : Survey) (cls : SegClass) : Survey :=
  if v.counts cls then
    let n := min max32 (v.belowGate + 1)
    { v with belowGate := n, saturated := v.saturated || n == max32 }
  else v

/-- The MI in progress as a survey keeps it (R64, R65). -/
def stamp (time : Option Mi) : MiMark :=
  match time with
  | none => .unset
  | some m => .at m

/-- R64: the survey as START SURVEY leaves it. -/
def started (classes : BitVec 5) (time : Option Mi) : Survey where
  state := .active
  classes := classes
  startMi := stamp time
  stopMi := .none
  bins := Vector.replicate 150 0
  belowGate := 0
  saturated := false

/-- R65: the survey as STOP SURVEY leaves it; `none` where it is refused. -/
def stop (v : Survey) (time : Option Mi) : Option Survey :=
  match v.state with
  | .idle => none
  | .active => some { v with state := .stopped, stopMi := stamp time }
  | .stopped => some v

/-- R69: the answer of READ SURVEY. -/
def view (v : Survey) : SurveyView where
  state := v.state
  classes := v.classes
  startMi := v.startMi
  stopMi := v.stopMi
  bins := v.bins
  total := totalCount v.bins.toList
  belowGate := v.belowGate
  saturated := v.saturated
  integrated := gatedIntegration v.bins.toList

end Survey

/-! ### Segments at the meter -/

namespace MeterSegment

/-- R41, R52: the entry of a segment just made known. -/
def ofOpened (m : SegOpened) : MeterSegment where
  inst := m.inst
  cls := m.cls
  start := m.start
  endMi := none
  mis := 0
  absentMis := 0
  positions := 0
  histogram := Vector.replicate 150 0
  belowGate := 0
  excluded := 0
  overRange := 0
  maxMomentary := none
  maxShortTerm := none
  maxSample := 0

/-- R41: MI `m` is attributed to the segment. -/
def holds (g : MeterSegment) (m : Mi) : Bool :=
  decide (g.start ≤ m) && (match g.endMi with
    | none => true
    | some e => decide (m < e))

/-- R52: the binned count. -/
def binned (g : MeterSegment) : Nat := totalCount g.histogram.toList

/-- R54, R62: the meter summary. -/
def summary (g : MeterSegment) : MeterSummary where
  mis := g.mis
  absentMis := g.absentMis
  positions := g.positions
  binned := g.binned
  belowGate := g.belowGate
  excluded := g.excluded
  overRange := g.overRange
  histogram := g.histogram
  integrated := gatedIntegration g.histogram.toList
  maxMomentary := g.maxMomentary
  maxShortTerm := g.maxShortTerm
  peak := peakCode g.maxSample

/-- R72, R73: the segment as READ METER shows it. -/
def view (g : MeterSegment) : MeterSegmentView where
  inst := g.inst
  cls := g.cls
  start := g.start
  mis := g.mis
  absentMis := g.absentMis
  positions := g.positions
  binned := g.binned
  belowGate := g.belowGate
  excluded := g.excluded
  overRange := g.overRange
  maxMomentary := g.maxMomentary
  maxShortTerm := g.maxShortTerm
  peak := peakCode g.maxSample
  integrated := gatedIntegration g.histogram.toList

end MeterSegment

/-- The greater of a code and one that may be missing. -/
def maxCode (old : Option Int) (c : Int) : Option Int :=
  match old with
  | none => some c
  | some o => some (max o c)

/-! ### The outcome of a block position (R47 to R49) -/

/-- What the completion of an MI gives as its block. -/
inductive Block where
  | noPosition
  | excluded
  | below
  | binned (c : Int)
deriving DecidableEq, Repr

/-- The mean of energies, or `none` where one is absent. -/
def meanEnergy (l : List SubBlock) : Option Rat :=
  if l.any (·.energy.isNone) then none
  else some ((l.map fun b => b.energy.getD 0).sum / l.length)

/-- R47, R48: the block of the last four ring entries, `d` counting the MI now completing. -/
def blockOf (d : Nat) (ring : List SubBlock) : Block :=
  if d < 4 then .noPosition
  else
    match meanEnergy (ring.drop (ring.length - 4)) with
    | none => .excluded
    | some e =>
      match loudnessCode e with
      | none => .below
      | some c => if c < -700 then .below else .binned c

/-- R50: the short-term code. -/
def shortTermOf (d : Nat) (ring : List SubBlock) : Option Int :=
  if d < ringPlaces then none
  else
    match meanEnergy ring with
    | none => none
    | some e => (loudnessCode e).map (max (-999))

/-- The last block result that a block gives (R47 to R49). -/
def Block.result : Block → BlockResult
  | .noPosition => .none
  | .excluded => .absentExcluded
  | .below => .belowGate
  | .binned c => .code c

/-- R47 to R49: a segment's accumulators after a block. -/
def MeterSegment.addBlock (g : MeterSegment) : Block → MeterSegment
  | .noPosition => g
  | .excluded => { g with positions := g.positions + 1, excluded := g.excluded + 1 }
  | .below => { g with positions := g.positions + 1, belowGate := g.belowGate + 1 }
  | .binned c =>
    let b := binOfCode c
    { g with
      positions := g.positions + 1
      histogram := g.histogram.set b (g.histogram[b] + 1)
      overRange := if 50 ≤ c then g.overRange + 1 else g.overRange
      maxMomentary := maxCode g.maxMomentary c }

/-- R47 to R49: the counters that a block increments. -/
def Block.increments (svc : Svc) : Block → List Instr
  | .noPosition => []
  | .excluded => [increment .blocksAbsent svc]
  | .below => [increment .blocksBelowGate svc]
  | .binned c => increment .blocksBinned svc :: (if 50 ≤ c then [increment .blocksOverRange svc] else [])

/-- R66, R67: the offer of a block to the survey. -/
def Survey.offer (v : Survey) (cls : SegClass) : Block → Survey
  | .noPosition => v
  | .excluded => v
  | .below => v.offerBelow cls
  | .binned c => v.offerBin cls (binOfCode c)

/-- R53: the MI result. -/
def Block.miResult (inst : Nat) (m : Mi) (floor : Int) : Block → MiResult
  | .noPosition => ⟨inst, m, false, false⟩
  | .excluded => ⟨inst, m, false, false⟩
  | .below => ⟨inst, m, true, false⟩
  | .binned c => ⟨inst, m, true, decide (floor ≤ c)⟩

/-- R51: the largest magnitude of held samples. -/
def largestMagnitude (frames : List (List Int)) : Nat :=
  (frames.flatMap fun f => f.map Int.natAbs).foldl max 0

/-! ### One service at the meter -/

/-- The span has MI `m`. -/
def MiSpan.has (p : MiSpan) (m : Mi) : Bool := decide (p.first ≤ m) && decide (m < p.behind)

namespace MeterSvc

/-- The filters of the service's channel list in zero state (R45). -/
def zeroFilters (x : MeterSvc) : List EntryFilter :=
  x.record.channels.map fun _ => EntryFilter.zero

/-- R42: the last MI completed in the run. -/
def lastCompleted (x : MeterSvc) : Option Mi :=
  x.ring.getLast?.map (·.mi)

/-- R42: the MI that the next completion finds if it passes over none. -/
def nextMi (x : MeterSvc) : Mi :=
  match x.lastCompleted with
  | some c => c + 1
  | none => x.runStart.getD 0

/-- R42: the MIs passed over, once MI `m` completes: those of the run below it that have not completed (DEDUCED, log
entry 12). -/
def passedAt (x : MeterSvc) (m : Mi) : List MiSpan :=
  if x.nextMi < m then x.passed ++ [⟨x.nextMi, m⟩] else x.passed

/-- R42: MI `m` of the run has completed: MIs complete in ascending order, and those passed over have not. -/
def hasCompleted (x : MeterSvc) (m : Mi) : Bool :=
  x.runStart.any (fun a => decide (a ≤ m)) && x.lastCompleted.any (fun c => decide (m ≤ c)) && !x.passed.any (·.has m)

/-- R54: the summary condition of an entry: it has an end, and every MI from its start to its end minus one has completed. An MI
that completed before the segment messages of its own tick were taken counts here for the entry that it lies in, though its
accumulators are those of the entry before, which had no end yet (R41; DESIGN CHOICE, log entry 37). -/
def finished (x : MeterSvc) (g : MeterSegment) : Bool :=
  match g.endMi with
  | none => false
  | some e =>
    decide (g.start < e) && x.hasCompleted g.start && x.hasCompleted (e - 1)
      && x.passed.all fun p => decide (min e p.behind ≤ max g.start p.first)

/-- R40: data tagged `m` is discarded on arrival. -/
def discards (x : MeterSvc) (m : Mi) : Bool :=
  x.run == .idle
    || (match x.runStart with
        | none => false
        | some a => decide (m < a))
    || (match x.lastCompleted with
        | none => false
        | some c => decide (m ≤ c))

/-- An MI just begun to be held (R40). -/
def newHeld (x : MeterSvc) (m : Mi) : HeldMi where
  mi := m
  frames := []
  judgment := none
  endTick := match x.lastTick with
    | none => false
    | some t => decide (m < t)

/-- R40: an MI's data changed in an input list in ascending order, the MI joining it where it is not held yet. -/
def hold (new : HeldMi) (f : HeldMi → HeldMi) : List HeldMi → List HeldMi
  | [] => [f new]
  | h :: hs =>
    if h.mi = new.mi then f h :: hs
    else if new.mi < h.mi then f new :: h :: hs
    else h :: hold new f hs

/-- R40: a sample frame; only the samples of the channel list are kept. -/
def takeFrame (x : MeterSvc) (m : Mi) (frame : SampleFrame) : MeterSvc :=
  if x.discards m then x
  else
    let kept := x.record.channels.map fun e => frame.getD e.channel.val 0
    { x with input := hold (x.newHeld m) (fun h => { h with frames := h.frames ++ [kept] }) x.input }

/-- R40: a judgment. -/
def takeJudgment (x : MeterSvc) (m : Mi) (j : Judgment) : MeterSvc :=
  if x.discards m then x
  else { x with input := hold (x.newHeld m) (fun h => { h with judgment := some j }) x.input }

/-- R40: an MI tick. -/
def takeTick (x : MeterSvc) (t : Mi) : MeterSvc :=
  if x.run = .idle then x
  else
    { x with
      lastTick := some t
      input := x.input.map fun h => if h.mi < t then { h with endTick := true } else h }

/-- R41: the segment to which an MI is attributed. -/
def attributed (x : MeterSvc) (m : Mi) : Option MeterSegment :=
  (x.segments.filter (·.holds m)).getLast?

/-- R44 to R46: filters and sub-block energy of an MI. -/
def subBlock (x : MeterSvc) (h : HeldMi) : Judgment → List EntryFilter × Option Rat
  | .absent => (x.filters, none)
  | .present n =>
    let r := filterFrames h.frames 0 x.record.channels (if x.prevAbsent then x.zeroFilters else x.filters)
    (r.1, some (r.2 / n))

/-- R46: the ring after an entry of a segment that has completed `mis` MIs before it. -/
def ringAfter (x : MeterSvc) (mis : Nat) (b : SubBlock) : List SubBlock :=
  let old := if mis = 0 then [] else x.ring
  (if ringPlaces ≤ old.length then old.tail else old) ++ [b]

/-- R42, steps 1 to 6: an MI of segment `g` completes with a judgment. -/
def completeMi (x : MeterSvc) (svc : Svc) (h : HeldMi) (j : Judgment) (g : MeterSegment) :
    MeterSvc × List Instr :=
  let f := x.subBlock h j
  let ring := x.ringAfter g.mis ⟨h.mi, f.2⟩
  let d := g.mis + 1
  let block := blockOf d ring
  let short := shortTermOf d ring
  let g' := g.addBlock block
  let g'' : MeterSegment :=
    { g' with
      mis := d
      absentMis := if j = .absent then g.absentMis + 1 else g.absentMis
      maxShortTerm := match short with
        | none => g.maxShortTerm
        | some c => maxCode g.maxShortTerm c
      maxSample := if j = .absent then g.maxSample else max g.maxSample (largestMagnitude h.frames) }
  ({ x with
      filters := f.1
      prevAbsent := j == .absent
      ring := ring
      passed := x.passedAt h.mi
      lastBlock := block.result
      lastShort := short
      survey := x.survey.offer g.cls block
      segments := x.segments.map fun e => if e.inst = g.inst then g'' else e
      input := x.input.filter fun e => e.mi != h.mi },
    block.increments svc ++ [.miResult svc (block.miResult g.inst h.mi x.record.speechFloor)])

/-- R42: the MI that is due to complete, with its judgment and its segment. -/
def due (x : MeterSvc) : Option (HeldMi × Judgment × MeterSegment) :=
  match x.run, x.input.head? with
  | .measuring, some h =>
    match h.judgment, h.endTick, x.attributed h.mi with
    | some j, true, some g => some (h, j, g)
    | _, _, _ => none
  | _, _ => none

/-- R54: the summaries whose condition holds are sent, in the order of the segment list, and their entries leave it. -/
def sendSummaries (x : MeterSvc) (svc : Svc) : MeterSvc × List Instr :=
  ({ x with segments := x.segments.filter fun g => !x.finished g },
    (x.segments.filter x.finished).map fun g => .meterSummaryArrival svc g.inst g.summary)

/-- R42, R54: the MI that is due completes, and summaries follow. -/
def completeDue (x : MeterSvc) (svc : Svc) : MeterSvc × List Instr :=
  match x.due with
  | none => (x, [])
  | some (h, j, g) =>
    let c := x.completeMi svc h j g
    let r := c.1.sendSummaries svc
    (r.1, c.2 ++ r.2)

/-- R42: every MI that is due completes, in ascending order; at most `fuel` of them. -/
def completeAll (svc : Svc) : Nat → MeterSvc → MeterSvc × List Instr
  | 0, x => (x, [])
  | fuel + 1, x =>
    if x.due.isNone then (x, [])
    else
      let c := x.completeDue svc
      let r := completeAll svc fuel c.1
      (r.1, c.2 ++ r.2)

/-- R42, R54: after an arrival, what is due comes about. -/
def settle (x : MeterSvc) (svc : Svc) : MeterSvc × List Instr :=
  let a := x.sendSummaries svc
  let b := completeAll svc x.input.length a.1
  (b.1, a.2 ++ b.2)

/-- R39: run started; other states than IDLE are DESIGN CHOICE (log entry 10), the last tick kept is DEDUCED (log
entry 12). -/
def runStarted (x : MeterSvc) (r : ServiceRecord) : MeterSvc :=
  if x.run = .idle then
    { x with
      run := .waiting, runStart := none, input := [], filters := r.channels.map fun _ => EntryFilter.zero
      prevAbsent := false, ring := [], passed := [], lastBlock := .none, lastShort := none, record := r }
  else x

/-- R39, R41: segment opened. -/
def segmentOpened (x : MeterSvc) (m : SegOpened) : MeterSvc :=
  match x.run with
  | .idle => x
  | .waiting =>
    { x with
      run := .measuring, runStart := some m.start, segments := x.segments ++ [MeterSegment.ofOpened m]
      input := x.input.filter fun h => decide (m.start ≤ h.mi) }
  | .measuring => { x with segments := x.segments ++ [MeterSegment.ofOpened m] }

/-- R39, R41: segment closed. -/
def segmentClosed (x : MeterSvc) (m : SegClosed) : MeterSvc :=
  if x.run = .measuring then
    { x with segments := x.segments.map fun g => if g.inst = m.inst then { g with endMi := some m.endMi } else g }
  else x

/-- R43: the MIs from `m` on complete, `count` of them, each with its judgment if that has arrived and absent
otherwise (DEDUCED, log entry 12). -/
def drainFrom (svc : Svc) : Nat → Mi → MeterSvc → MeterSvc × List Instr
  | 0, _, x => (x, [])
  | count + 1, m, x =>
    let h := (x.input.find? (·.mi == m)).getD (x.newHeld m)
    match x.attributed m with
    | none => drainFrom svc count (m + 1) x
    | some g =>
      let c := x.completeMi svc h (h.judgment.getD .absent) g
      let s := c.1.sendSummaries svc
      let r := drainFrom svc count (m + 1) s.1
      (r.1, c.2 ++ s.2 ++ r.2)

/-- R39, R43: run ended. -/
def runEnded (x : MeterSvc) (svc : Svc) (endMi : Option Mi) : MeterSvc × List Instr :=
  match x.run, endMi with
  | .idle, _ => (x, [])
  | .waiting, _ => ({ x with run := .idle, input := [] }, [])
  | .measuring, none => (x, [])
  | .measuring, some e =>
    let d := drainFrom svc (e - x.nextMi) x.nextMi x
    ({ d.1 with run := .idle, input := [] }, d.2)

/-- R71: the current segment of READ METER. -/
def current (x : MeterSvc) : Option MeterSegment :=
  match x.segments.getLast? with
  | none => none
  | some g => if g.endMi.isNone then some g else none

/-- R72: the answer of READ METER. -/
def view (x : MeterSvc) : MeterView where
  run := x.run
  lastBlock := x.lastBlock
  lastShort := x.lastShort
  segment := x.current.map MeterSegment.view

/-- R56: the meter after a warm reset; the survey is kept (R70). -/
def warmReset (x : MeterSvc) : MeterSvc :=
  { x with
    run := .idle, runStart := none, input := [], lastTick := none, segments := [], filters := []
    prevAbsent := false, ring := [], passed := [], lastBlock := .none, lastShort := none }

end MeterSvc

/-! ### The meter in the part -/

namespace State

/-- A service's meter replaced, and the messages it sends. -/
def meterDoes (s : State) (i : Svc) (r : MeterSvc × List Instr) : State :=
  (s.setMeter i r.1).send r.2

/-- A service's survey replaced. -/
def setSurvey (s : State) (i : Svc) (v : Survey) : State :=
  s.setMeter i { s.meter[i] with survey := v }

end State

/-- METER_RUN_STARTED (R39, R13). -/
def execMeterRunStarted (i : Svc) (s : State) : Result :=
  let s := s.arrive (.meterRunStarted i)
  .next (s.setMeter i (s.meter[i].runStarted s.map[i]))

/-- METER_SEGMENT_OPENED (R39, R41). -/
def execMeterSegmentOpened (i : Svc) (msg : SegOpened) (s : State) : Result :=
  let s := s.arrive (.meterSegmentOpened i msg)
  .next (s.meterDoes i ((s.meter[i].segmentOpened msg).settle i))

/-- METER_SEGMENT_CLOSED (R39, R41, R54). -/
def execMeterSegmentClosed (i : Svc) (msg : SegClosed) (s : State) : Result :=
  let s := s.arrive (.meterSegmentClosed i msg)
  .next (s.meterDoes i ((s.meter[i].segmentClosed msg).settle i))

/-- METER_RUN_ENDED (R39, R43). -/
def execMeterRunEnded (i : Svc) (endMi : Option Mi) (s : State) : Result :=
  let s := s.arrive (.meterRunEnded i endMi)
  .next (s.meterDoes i (s.meter[i].runEnded i endMi))

/-- METER_SAMPLE_FRAME (R40). -/
def execMeterSampleFrame (i : Svc) (m : Mi) (frame : SampleFrame) (s : State) : Result :=
  let s := s.arrive (.meterSampleFrame i m frame)
  .next (s.setMeter i (s.meter[i].takeFrame m frame))

/-- METER_JUDGMENT (R40, R42). -/
def execMeterJudgment (i : Svc) (m : Mi) (j : Judgment) (s : State) : Result :=
  let s := s.arrive (.meterJudgment i m j)
  .next (s.meterDoes i ((s.meter[i].takeJudgment m j).settle i))

/-- METER_MI_TICK (R40, R42): the tick is taken for every service. -/
def execMeterMiTick (t : Mi) (s : State) : Result :=
  let s := s.arrive (.meterMiTick t)
  .next (allSvcs.foldl (fun x i => x.meterDoes i ((x.meter[i].takeTick t).settle i)) s)

/-- METER_MI_COMPLETION (R42): the MI that is due completes. -/
def execMeterMiCompletion (i : Svc) (s : State) : Result :=
  .next (s.meterDoes i (s.meter[i].completeDue i))

/-- METER_SUMMARY (R54): the summaries whose condition holds are sent. -/
def execMeterSummary (i : Svc) (s : State) : Result :=
  .next (s.meterDoes i (s.meter[i].sendSummaries i))

/-- START SURVEY (R64). -/
def execStartSurvey (rq : Req) (svc : Nat) (classes : Nat) (s : State) : Result :=
  let s := s.arrive (.startSurvey rq svc classes)
  .next
    (match asFin 16 svc with
    | none => s.refuse rq .badArgument
    | some i =>
      if classes < 2 ^ 5 then
        (s.setSurvey i (Survey.started (BitVec.ofNat 5 classes) s.now)).respond rq .ok .nothing
      else s.refuse rq .badArgument)

/-- STOP SURVEY (R65). -/
def execStopSurvey (rq : Req) (svc : Nat) (s : State) : Result :=
  let s := s.arrive (.stopSurvey rq svc)
  .next
    (match asFin 16 svc with
    | none => s.refuse rq .badArgument
    | some i =>
      match s.meter[i].survey.stop s.now with
      | none => s.refuse rq .state
      | some v => (s.setSurvey i v).respond rq .ok .nothing)

/-- READ SURVEY (R69). -/
def execReadSurvey (rq : Req) (svc : Nat) (s : State) : Result :=
  let s := s.arrive (.readSurvey rq svc)
  .next
    (match asFin 16 svc with
    | none => s.refuse rq .badArgument
    | some i => s.respond rq .ok (.survey s.meter[i].survey.view))

/-- READ METER (R72). -/
def execReadMeter (rq : Req) (svc : Nat) (s : State) : Result :=
  let s := s.arrive (.readMeter rq svc)
  .next
    (match asFin 16 svc with
    | none => s.refuse rq .badArgument
    | some i => s.respond rq .ok (.meter s.meter[i].view))

end Sys2Proof.Machine
end

