-- ==== Sys2Proof/Machine/Requests.lean ====
section
/-!
DEFINITION. The request catalogue (10.5), and the arguments of a request as its payload carries them (10.8.1).
-/

namespace Sys2Proof.Machine

/-! ### The catalogue (10.5) -/

/-- A row of the catalogue: a request code and the roles permitted. -/
structure CatalogueRow where
  code     : Nat
  playout  : Bool
  console  : Bool
  archive  : Bool
  observer : Bool
deriving DecidableEq, Repr

/-- 10.5: the catalogue. -/
def catalogue : List CatalogueRow :=
  [⟨0x01, true, false, false, false⟩, ⟨0x02, true, false, false, false⟩, ⟨0x03, true, false, false, false⟩,
    ⟨0x04, true, false, false, false⟩, ⟨0x05, true, true, false, true⟩]
  ++ [⟨0x10, false, true, false, false⟩, ⟨0x11, false, true, false, false⟩, ⟨0x12, false, true, false, false⟩,
    ⟨0x13, false, true, false, false⟩, ⟨0x14, false, true, false, false⟩, ⟨0x15, false, true, false, false⟩,
    ⟨0x16, false, true, false, false⟩, ⟨0x17, false, true, false, false⟩, ⟨0x18, false, true, false, false⟩,
    ⟨0x19, false, true, false, false⟩, ⟨0x1A, false, true, false, false⟩, ⟨0x1B, false, true, false, false⟩,
    ⟨0x1C, false, true, false, false⟩, ⟨0x1D, false, true, false, false⟩, ⟨0x1E, false, true, false, false⟩,
    ⟨0x1F, false, true, false, false⟩, ⟨0x20, false, true, false, false⟩, ⟨0x21, false, true, false, false⟩,
    ⟨0x22, false, true, false, false⟩, ⟨0x23, false, true, false, false⟩]
  ++ [⟨0x30, false, false, true, false⟩, ⟨0x31, false, false, true, false⟩, ⟨0x32, false, false, true, false⟩,
    ⟨0x33, false, false, true, false⟩, ⟨0x34, false, false, true, false⟩]
  ++ [⟨0x40, true, true, true, true⟩, ⟨0x41, true, true, true, true⟩, ⟨0x42, true, true, true, true⟩,
    ⟨0x43, true, true, true, true⟩, ⟨0x44, true, true, false, true⟩, ⟨0x45, false, true, true, false⟩,
    ⟨0x46, true, true, true, true⟩, ⟨0x47, true, true, true, true⟩]

/-- R174: the row of a request code. -/
def catalogueRow (code : Nat) : Option CatalogueRow := catalogue.find? (·.code == code)

/-- R176: a role is permitted the requests of a row. -/
def CatalogueRow.permits (r : CatalogueRow) : Role → Bool
  | .playout => r.playout
  | .console => r.console
  | .archive => r.archive
  | .observer => r.observer

/-! ### Arguments (10.8.1) -/

/-- The number in `k` bytes of a payload from place `o`. -/
def field (l : List Byte) (o k : Nat) : Nat := ofBe ((l.drop o).take k)

/-- The signed number in the 2 bytes of a payload from place `o`. -/
def codeField (l : List Byte) (o : Nat) : Int := ofBe16 ((l.drop o).take 2)

/-- A field behind its marker byte at place `o`: 00 a value, 01 DEFAULT, 02 NONE. The field behind another marker than 00 is
not looked at (DESIGN CHOICE, log entry 35). -/
def marked {α : Type} (l : List Byte) (o : Nat) (value : α) : Arg α :=
  match field l o 1 with
  | 0 => .value value
  | 1 => .dflt
  | 2 => .absent
  | _ => .badMarker

/-- A number of `k` bytes behind its marker byte at place `o`. -/
def markedNat (l : List Byte) (o k : Nat) : Arg Nat := marked l o (field l (o + 1) k)

/-- A level code behind its marker byte at place `o`. Behind the marker 00, 8000 and 8001 hex are the numbers −32768 and −32767,
not NONE and NOT_MEASURED: R97 takes no number as NONE (DEDUCED, log entry 38). -/
def markedCode (l : List Byte) (o : Nat) : Arg Int := marked l o (codeField l (o + 1))

/-- R22: the five fields of a descriptor from place 1. -/
def descArgs (l : List Byte) : DescArgs where
  id := field l 1 4
  start := field l 5 5
  cls := field l 10 1
  profile := field l 11 1
  planned := field l 12 4

/-- 10.5: a channel list of `n` entries from place `o`. -/
def channelArgs (l : List Byte) (o n : Nat) : List (Nat × Nat) :=
  (List.range n).map fun k => (field l (o + 2 * k) 1, field l (o + 2 * k + 1) 1)

/-- The count byte of CONFIGURE SERVICE's channel list. -/
def channelCount (l : List Byte) : Nat := field l 4 1

/-- R13: the fields of CONFIGURE SERVICE, each of the sixteen behind a marker byte (DESIGN CHOICE, log entry 34); `d` is the
place behind the channel list. -/
def serviceArgs (l : List Byte) : ServiceArgs :=
  let n := channelCount l
  let d := 5 + 2 * n
  { audioLane := markedNat l 1 1
    channels := marked l 3 (channelArgs l 5 n)
    captionLane := markedNat l d 1
    captionStream := markedNat l (d + 2) 1
    rowMask := markedNat l (d + 4) 2
    speechFloor := markedCode l (d + 7)
    streamTimeout := markedNat l (d + 10) 4
    proxyLane := markedNat l (d + 15) 1
    normalKeep := markedNat l (d + 17) 4
    reducedKeep := markedNat l (d + 22) 4
    recording := markedNat l (d + 27) 1
    priority := markedNat l (d + 29) 1
    overwrite := markedNat l (d + 31) 1
    profile := markedNat l (d + 33) 1
    unschedPlanned := markedNat l (d + 35) 4
    holdGuard := markedNat l (d + 40) 4 }

/-- R96: the fields of WRITE PROFILE. -/
def profileArgs (l : List Byte) : ProfileArgs where
  target := markedCode l 1
  tolerance := markedNat l 4 2
  shortTerm := markedCode l 7
  peak := markedCode l 10
  relative := markedNat l 13 2
  captions := markedNat l 16 1
  minCoverage := markedNat l 18 2
  maxGap := markedNat l 21 4
  overrun := markedNat l 26 4

/-- R125: the values of SET RESERVES. -/
def reserveArgs (l : List Byte) : ReserveArgs where
  reserve0 := markedNat l 0 4
  reserve1 := markedNat l 5 4
  reserve2 := markedNat l 10 4
  threshold := markedNat l 15 4

/-- R183: the fields of SET ROUTE. -/
def routeArgs (l : List Byte) : RouteArgs where
  enable := field l 1 1
  kind := field l 2 1
  value := field l 3 1
  mask := field l 4 1
  port := field l 5 1

/-- 10.5: the payload length that a request's arguments take. -/
def payloadBytes (code : Nat) (l : List Byte) : Nat :=
  match code with
  | 0x01 => 16
  | 0x02 => 16
  | 0x03 => 5
  | 0x04 => 5
  | 0x05 => 1
  | 0x10 => 50 + 2 * channelCount l
  | 0x11 => 3
  | 0x12 => 4
  | 0x13 => 20
  | 0x14 => 31
  | 0x15 => 6
  | 0x16 => 2
  | 0x17 => 2
  | 0x18 => 1
  | 0x19 => 1
  | 0x1A => 2
  | 0x1B => 1
  | 0x1C => 6
  | 0x1D => 11
  | 0x1E => 1
  | 0x1F => 1
  | 0x20 => 14
  | 0x21 => 1
  | 0x22 => 1
  | 0x30 => 5
  | 0x31 => 10
  | 0x32 => 4
  | 0x33 => 4
  | 0x40 => 1
  | 0x42 => 1
  | 0x43 => 1
  | 0x44 => 6
  | 0x45 => 6
  | 0x47 => 1
  | _ => 0

/-- 10.5: the command that a permitted request of the right length passes to its owning block. -/
def commandOf (rq : Req) (straps : Straps) (code : Nat) (l : List Byte) : Option Instr :=
  match code with
  | 0x01 => some (.stage rq (field l 0 1) (descArgs l))
  | 0x02 => some (.groupStage rq (field l 0 1) (descArgs l))
  | 0x03 => some (.withdraw rq (field l 0 1) (field l 1 4))
  | 0x04 => some (.setTime rq (field l 0 5))
  | 0x05 => some (.readSchedule rq (field l 0 1))
  | 0x10 => some (.configureService rq (field l 0 1) (serviceArgs l))
  | 0x11 => some (.configureGroup rq (field l 0 1) (field l 1 2))
  | 0x12 => some (.configureStore rq (field l 0 4))
  | 0x13 => some (.setReserves rq (reserveArgs l))
  | 0x14 => some (.writeProfile rq (field l 0 1) (profileArgs l))
  | 0x15 => some (.setRoute rq (field l 0 1) (routeArgs l))
  | 0x16 => some (.setAttentionMode rq (field l 0 1) (field l 1 1))
  | 0x17 => some (.setAlertMask rq (field l 0 2))
  | 0x18 => some (.startService rq (field l 0 1))
  | 0x19 => some (.stopService rq (field l 0 1))
  | 0x1A => some (.startSurvey rq (field l 0 1) (field l 1 1))
  | 0x1B => some (.stopSurvey rq (field l 0 1))
  | 0x1C => some (.collect rq (field l 0 6))
  | 0x1D => some (.createHold rq (field l 0 1) (field l 1 5) (field l 6 5))
  | 0x1E => some (.releaseHold rq (field l 0 1))
  | 0x1F => some (.fixHold rq (field l 0 1))
  | 0x20 => some (.readChunkReview rq (field l 0 2) (field l 2 1) (field l 3 5) (field l 8 4) (field l 12 2))
  | 0x21 => some (.clearCounters rq (field l 0 1))
  | 0x22 => some (.clearAlerts rq (field l 0 1))
  | 0x23 => some (.warmReset rq straps)
  | 0x30 => some (.take rq (markedNat l 0 4))
  | 0x31 => some (.readChunk rq (field l 0 2) (field l 2 2) (field l 4 4) (field l 8 2))
  | 0x32 => some (.confirm rq (field l 0 2) (field l 2 2))
  | 0x33 => some (.returnTake rq (field l 0 2) (field l 2 2))
  | 0x34 => some (.readArchiveStatus rq)
  | 0x40 => some (.readStatus rq (field l 0 1))
  | 0x41 => some (.readNotice rq)
  | 0x42 => some (.readMeter rq (field l 0 1))
  | 0x43 => some (.readSurvey rq (field l 0 1))
  | 0x44 => some (.readLog rq (field l 0 6))
  | 0x45 => some (.findClip rq (field l 0 1) (field l 1 5))
  | 0x46 => some (.readHolds rq)
  | 0x47 => some (.readCounters rq (field l 0 1))
  | _ => none

/-- R174: the three checks of a request entering service at a port of a role: the command passed on, or the status of
the first check that fails. -/
def checkRequest (role : Role) (rq : Req) (straps : Straps) (q : Request) : Except Status Instr :=
  match catalogueRow q.code.toNat with
  | none => .error .badArgument
  | some row =>
    if row.permits role then
      if q.payload.length = payloadBytes q.code.toNat q.payload then
        match commandOf rq straps q.code.toNat q.payload with
        | some c => .ok c
        | none => .error .badArgument
      else .error .badArgument
    else .error .notPermitted

end Sys2Proof.Machine
end

