-- ==== Sys2Proof/Machine/Ports.lean ====
section
/-!
DEFINITION. The link ports (chapter 10): roles, symbols and frames, the request queue, link loss.
-/

namespace Sys2Proof.Machine

/-- The places of a request queue (R173). -/
def requestPlaces : Nat := 4

/-! ### Roles (R175) -/

/-- R175: the value that two straps give, that of the higher bit read first, as the role it stands for. A strap tied high reads
as 1 (DEDUCED, log entry 3). -/
def roleOf (t : PortStraps) : Role :=
  match t.high, t.low with
  | false, false => .playout
  | false, true => .console
  | true, false => .archive
  | true, true => .observer

/-- R175: the strapped roles of the three ports. -/
def rolesOf (t : Straps) : Vector Role 3 := #v[roleOf t.port0, roleOf t.port1, roleOf t.port2]

/-- R175: the straps as a WARM RESET under pass `k` of a port reads them. -/
def reading (p : PortNo) (k : Nat) : Straps :=
  let at' (q : PortNo) : PortStraps := ⟨Config.strapLevel p k q true, Config.strapLevel p k q false⟩
  ⟨at' 0, at' 1, at' 2⟩

/-- R175: the role that a port takes: a role that a lower-numbered port straps as well leaves it OBSERVER. -/
def roleHeld (strapped : Vector Role 3) (p : PortNo) : Role :=
  if (strapped.toList.take p.val).contains strapped[p] then .observer else strapped[p]

namespace Port

/-- R170, R175, R179: a port after power-on reset under straps; the numbering of its passes goes on. -/
def afterPower (t : Straps) (p : PortNo) (passes : Nat) : Port :=
  { Port.powerOn (rolesOf t)[p] (roleHeld (rolesOf t) p) with passes := passes }

/-- R171: a data symbol: the 4103rd byte discards the frame in reception. The Boolean says that a frame was
discarded. -/
def dataByte (x : Port) (b : Byte) : Port × Bool :=
  match x.link, x.rx with
  | .up, some l =>
    if requestFrameMax ≤ l.length then ({ x with rx := none }, true) else ({ x with rx := some (l ++ [b]) }, false)
  | _, _ => (x, false)

/-- R171: a START symbol; a frame in reception is discarded. One that follows a frame discarded for its length begins a frame as
well, though no END has come since (DESIGN CHOICE, log entry 36). -/
def startFrame (x : Port) : Port × Bool :=
  match x.link with
  | .down => (x, false)
  | .up => ({ x with rx := some [] }, x.rx.isSome)

/-- R173, R171: the request of a good frame joins the queue, or is answered BUSY at once. The Boolean says that it
enters service. -/
def takeRequest (x : Port) (q : Request) : Port × Bool :=
  if requestPlaces ≤ x.queue.length then (x.say ⟨q.tag, .busy, .nothing⟩, false)
  else ({ x with queue := x.queue ++ [q] }, x.queue.isEmpty)

/-- R178, R179: of the queue only a request that has been passed to its block stays, until its response. -/
def keepServed (x : Port) : Port :=
  { x with queue := if x.serving.isSome then x.queue.take 1 else [] }

/-- R170, R178: the port enters LINK_DOWN: the requests not in service and the frame in reception are discarded. -/
def linkLost (x : Port) : Port :=
  { x.keepServed with link := .down, rx := none }

/-- R170, R178: the port enters LINK_UP, its queue empty: the response of a request still at its block will find no one
waiting for it. -/
def linkAligned (x : Port) : Port :=
  match x.link with
  | .up => x
  | .down => { x with link := .up, queue := [], serving := none }

/-- The request in service whose checks have not been made. -/
def unserved (x : Port) : Option Request :=
  if x.serving.isSome then none else x.queue.head?

end Port

namespace State

/-- The strapped roles as last read (R175). -/
def strapped (s : State) : Vector Role 3 := #v[s.ports[0].strap, s.ports[1].strap, s.ports[2].strap]

/-- R174: the checks of a request under pass `k` of a port; a WARM RESET will read the straps as they then are. -/
def checked (s : State) (p : PortNo) (k : Nat) (q : Request) : Except Status Instr :=
  checkRequest s.ports[p].role ⟨p, q.tag, some k⟩ (reading p k) q

/-- R174: the request at the head of a port's queue is checked; it is passed to its owning block, or answered by the
port. -/
def serve (s : State) (p : PortNo) : State :=
  let x := s.ports[p]
  match x.unserved with
  | none => s
  | some q =>
    let k := x.passes + 1
    match s.checked p k q with
    | .ok c => (s.setPort p { x with serving := some k, passes := k }).send [c]
    | .error st =>
      let s' := s.setPort p { x.say ⟨q.tag, st, .nothing⟩ with queue := x.queue.tail }
      if x.queue.tail.isEmpty then s' else s'.send [.requestService p]

/-- R178: the request in service is passed to its block if it has not been yet; then the port enters LINK_DOWN. -/
def linkLoss (s : State) (p : PortNo) : State :=
  let x := s.ports[p]
  match x.link with
  | .down => s
  | .up =>
    match x.unserved with
    | none => s.setPort p x.linkLost
    | some q =>
      let k := x.passes + 1
      match s.checked p k q with
      | .ok c => (s.setPort p { x with serving := some k, passes := k }.linkLost).send [c]
      | .error _ => s.setPort p x.linkLost

/-- R171: a port replaced, and the count of a discarded frame. -/
def portFrame (s : State) (p : PortNo) (r : Port × Bool) : State :=
  (s.setPort p r.1).send (if r.2 then [.counterIncrement (.framesDiscarded p)] else [])

end State

/-- LINK_ALIGNMENT (R170, R178): 32 consecutive valid IDLE symbols in LINK_DOWN. -/
def execLinkAlignment (p : PortNo) (s : State) : Result :=
  .next (s.setPort p s.ports[p].linkAligned)

/-- LINK_DOWN (R170, R178): 4 invalid symbols within 64. -/
def execLinkDown (p : PortNo) (s : State) : Result :=
  .next (s.linkLoss p)

/-- LINK_SILENCE_TIMEOUT (R170, R178): 2 µs with no valid symbol. -/
def execLinkSilenceTimeout (p : PortNo) (s : State) : Result :=
  .next (s.linkLoss p)

/-- START_SYMBOL (R171). -/
def execStartSymbol (p : PortNo) (s : State) : Result :=
  .next (s.portFrame p s.ports[p].startFrame)

/-- DATA_SYMBOL (R171). -/
def execDataSymbol (p : PortNo) (b : Byte) (s : State) : Result :=
  .next (s.portFrame p (s.ports[p].dataByte b))

/-- FRAME_RECEIVED (R171, R173): the END symbol. -/
def execFrameReceived (p : PortNo) (s : State) : Result :=
  let x := s.ports[p]
  .next
    (match x.link, x.rx with
    | .up, some l =>
      match parseFrame l with
      | none => s.portFrame p ({ x with rx := none }, true)
      | some q =>
        let r := { x with rx := none }.takeRequest q
        (s.setPort p r.1).send (if r.2 then [.requestService p] else [])
    | _, _ => s)

/-- REQUEST_SERVICE (R174, R176). -/
def execRequestService (p : PortNo) (s : State) : Result :=
  let s := s.arrive (.requestService p)
  .next (s.serve p)

end Sys2Proof.Machine
end

