-- ==== Sys2Proof/Machine/Router.lean ====
section
/-!
DEFINITION. The notice router (11.1): routes, notice queues and attention lines.
-/

namespace Sys2Proof.Machine

/-- The places of a notice queue, and the most pulses owed (R185, R186). -/
def noticePlaces : Nat := 64

/-- R184: a notice matches a route. -/
def Route.matches (r : Route) (n : Notice) : Bool :=
  r.enabled
    && (match r.kind with
        | none => true
        | some k => k == n.kind)
    && (match n.svc with
        | some s => (BitVec.ofNat 4 s.val ^^^ r.value) &&& ~~~r.mask == 0
        | none => r.mask == BitVec.allOnes 4)

namespace PortNotices

/-- R186: the level of the line that a mode and a queue give, between pulses. -/
def lineLevel (mode : AttentionMode) (queue : List NoticeRecord) : Bool :=
  match mode with
  | .level => !queue.isEmpty
  | .pulse => false

/-- R185, R186: a notice is enqueued at the port, or discarded and counted. -/
def enqueue (x : PortNotices) (n : Notice) : PortNotices :=
  if noticePlaces ≤ x.queue.length then { x with dropped := min max32 (x.dropped + 1) }
  else
    let q := x.queue ++ [⟨n, x.dropped⟩]
    { x with
      queue := q
      dropped := 0
      owed := match x.mode with
        | .level => x.owed
        | .pulse => min noticePlaces (x.owed + 1)
      line := lineLevel x.mode q }

/-- R185, R186: the oldest record leaves the queue. -/
def pop (x : PortNotices) : PortNotices :=
  { x with queue := x.queue.tail, line := lineLevel x.mode x.queue.tail }

/-- R186: the mode set. -/
def setMode (x : PortNotices) (mode : AttentionMode) : PortNotices :=
  if x.mode = mode then x
  else
    { x with
      mode := mode
      owed := match mode with
        | .level => 0
        | .pulse => x.owed
      line := lineLevel mode x.queue }

/-- R186: a pulse is given, and counted (DESIGN CHOICE, log entry 18). -/
def pulse (x : PortNotices) : PortNotices :=
  if x.mode = .pulse ∧ 0 < x.owed then { x with owed := x.owed - 1, pulses := x.pulses + 1 } else x

/-- R185, R186: the port's part of the router after a warm reset. -/
def warmReset (x : PortNotices) : PortNotices :=
  { x with queue := [], dropped := 0, owed := 0, line := false }

end PortNotices

namespace Router

/-- R184: some matching route has port `p` as its target. -/
def targets (x : Router) (n : Notice) (p : PortNo) : Bool :=
  (List.finRange 16).any fun k => x.routes[k].port == p && x.routes[k].matches n

/-- R182, R184: a notice is taken: it is enqueued once at each port that is the target of a matching route. -/
def take (x : Router) (n : Notice) : Router :=
  { x with
    ports := Vector.ofFn fun p : PortNo => if x.targets n p then x.ports[p].enqueue n else x.ports[p] }

end Router

/-- R183: the kind of a route argument: a kind code, or FF hex for ANY. -/
def routeKind (n : Nat) : Option (Option NoticeKind) :=
  if n = 255 then some none else (allNoticeKinds[n]?).map some

/-- R183: the route that SET ROUTE stores; `none` where a field is refused. -/
def readRoute (a : RouteArgs) : Option Route := do
  let enabled ← yesNo a.enable
  let kind ← routeKind a.kind
  let value ← asFin 16 a.value
  let mask ← asFin 16 a.mask
  let port ← asFin 3 a.port
  some ⟨enabled, kind, BitVec.ofNat 4 value.val, BitVec.ofNat 4 mask.val, port⟩

/-- R186: the mode of a mode byte. -/
def modeOf (n : Nat) : Option AttentionMode :=
  match n with
  | 0 => some .level
  | 1 => some .pulse
  | _ => none

/-- NOTICE_ARRIVAL (R182, R184 to R186). -/
def execNoticeArrival (n : Notice) (s : State) : Result :=
  let s := s.arrive (.noticeArrival n)
  .next { s with router := s.router.take n }

/-- ATTENTION_PULSE (R186). -/
def execAttentionPulse (p : PortNo) (s : State) : Result :=
  .next (s.setNotices p s.router.ports[p].pulse)

/-- SET ROUTE (R183). -/
def execSetRoute (rq : Req) (route : Nat) (args : RouteArgs) (s : State) : Result :=
  let s := s.arrive (.setRoute rq route args)
  .next
    (match asFin 16 route, readRoute args with
    | some n, some r =>
      { s with router := { s.router with routes := s.router.routes.set n r } }.respond rq .ok (.route r)
    | _, _ => s.refuse rq .badArgument)

/-- SET ATTENTION MODE (R186). -/
def execSetAttentionMode (rq : Req) (port mode : Nat) (s : State) : Result :=
  let s := s.arrive (.setAttentionMode rq port mode)
  .next
    (match asFin 3 port, modeOf mode with
    | some p, some m => (s.setNotices p (s.router.ports[p].setMode m)).respond rq .ok .nothing
    | _, _ => s.refuse rq .badArgument)

/-- READ NOTICE (R185): the queue of the port that issues it. -/
def execReadNotice (rq : Req) (s : State) : Result :=
  let s := s.arrive (.readNotice rq)
  .next
    (match s.router.ports[rq.port].queue with
    | [] => s.refuse rq .empty
    | r :: _ => (s.setNotices rq.port s.router.ports[rq.port].pop).respond rq .ok (.notice r))

end Sys2Proof.Machine
end

