-- ==== Sys2Proof/Machine/Schedule.lean ====
section
/-!
DEFINITION. The schedule unit (chapter 2): staging, switch groups, the decisions at an MI tick, the life cycle of a
segment and the recording view.
-/

namespace Sys2Proof.Machine

/-- The places of a staging queue (R21). -/
def stagingPlaces : Nat := 4

/-- R20: the instance counter runs from 1 to 2^32 − 1 and then returns to 1. -/
def nextInstance (n : Nat) : Nat :=
  if max32 ≤ n then 1 else n + 1

/-! ### Segments -/

/-- R20: a segment opened from a descriptor at tick `t`. -/
def Segment.staged (inst : Nat) (d : Descriptor) (t : Mi) : Segment where
  inst := inst
  id := some d.id
  cls := d.cls
  profile := d.profile
  planned := d.planned
  stagedStart := d.start
  actualStart := t
  endMi := none
  cause := none
  late := d.start != t
  referenceLost := false
  incomplete := false
  meterSummary := none
  captionSummary := none

/-- R20: a segment made from a due descriptor that gives way at tick `t`. -/
def Segment.skipped (inst : Nat) (d : Descriptor) (t : Mi) : Segment :=
  { Segment.staged inst d t with endMi := some t, cause := some .skipped, late := true }

/-- R20: an UNSCHEDULED segment opened at tick `t` under a service record. -/
def Segment.unscheduled (inst : Nat) (r : ServiceRecord) (t : Mi) : Segment where
  inst := inst
  id := none
  cls := .unscheduled
  profile := r.profile
  planned := r.unschedPlanned
  stagedStart := t
  actualStart := t
  endMi := none
  cause := none
  late := false
  referenceLost := false
  incomplete := false
  meterSummary := none
  captionSummary := none

/-- A segment with its end and closure cause (R31). -/
def Segment.close (g : Segment) (cause : Cause) (t : Mi) : Segment :=
  { g with endMi := some t, cause := some cause }

/-- R32: both summaries are in, or none is needed. -/
def Segment.complete (g : Segment) : Bool :=
  !g.needsSummaries || (g.meterSummary.isSome && g.captionSummary.isSome)

/-- R33: the flag that "NOT_RECORDING from `m`" sets on a closing segment. -/
def Segment.markFrom (m : Mi) (g : Segment) : Segment :=
  if g.needsSummaries && (match g.endMi with
      | none => true
      | some e => decide (m < e)) then
    { g with incomplete := true }
  else g

/-- R34: the flag that a NOT_RECORDING period [`m`, `m'`) sets on an open or closing segment (DEDUCED, log
entry 9). -/
def Segment.markPeriod (m m' : Mi) (g : Segment) : Segment :=
  if g.needsSummaries && decide (m < m') && decide (g.actualStart < m') && (match g.endMi with
      | none => true
      | some e => decide (m < e)) then
    { g with incomplete := true }
  else g

/-- R31: the messages of an opening. -/
def openedMessages (svc : Svc) (g : Segment) : List Instr :=
  let m : SegOpened := ⟨g.inst, g.id, g.cls, g.profile, g.actualStart⟩
  [.meterSegmentOpened svc m, .checkerSegmentOpened svc m, .onAirMessage svc ⟨g.inst, g.id, g.actualStart⟩]

/-- R31: the messages of a closing at `t`. -/
def closedMessages (svc : Svc) (g : Segment) (t : Mi) : List Instr :=
  let m : SegClosed := ⟨g.inst, g.actualStart, t⟩
  [.meterSegmentClosed svc m, .checkerSegmentClosed svc m]

/-- R39, R77, R122: run started, as START SERVICE sends it. -/
def runStartedMessages (svc : Svc) : List Instr :=
  [.meterRunStarted svc, .checkerRunStarted svc, .recorderRunStarted svc]

/-- R43, R86, R138: run ended at an MI, or before any segment opened. -/
def runEndedMessages (svc : Svc) (endMi : Option Mi) : List Instr :=
  [.meterRunEnded svc endMi, .checkerRunEnded svc endMi, .recorderRunEnded svc endMi]

/-! ### One service at an MI tick -/

namespace ServiceSched

/-- R28: the due descriptors at tick `t`, in queue order. -/
def due (x : ServiceSched) (t : Mi) : List Descriptor :=
  x.staging.filter fun d => decide (d.start ≤ t)

/-- R27, R28: the descriptors that stay in the queue at tick `t`. -/
def notDue (x : ServiceSched) (t : Mi) : List Descriptor :=
  x.staging.filter fun d => decide (t < d.start)

/-- R27: the tick's reference-held indication applied to the open segment. -/
def markReference (x : ServiceSched) (held : Bool) : ServiceSched :=
  if held then x else { x with openSeg := x.openSeg.map fun g => { g with referenceLost := true } }

/-- R31: the open segment closes at tick `t` and joins the closing set. -/
def closeOpen (x : ServiceSched) (svc : Svc) (cause : Cause) (t : Mi) : ServiceSched × List Instr :=
  match x.openSeg with
  | none => (x, [])
  | some g => ({ x with openSeg := none, closing := x.closing ++ [g.close cause t] }, closedMessages svc g t)

/-- R20, R28: a due descriptor gives way at tick `t`. -/
def skip (x : ServiceSched) (t : Mi) (d : Descriptor) : ServiceSched :=
  let n := nextInstance x.instCounter
  { x with instCounter := n, closing := x.closing ++ [Segment.skipped n d t] }

/-- R31: a segment made with the next instance opens. -/
def openNew (x : ServiceSched) (svc : Svc) (mk : Nat → Segment) : ServiceSched × List Instr :=
  let n := nextInstance x.instCounter
  ({ x with instCounter := n, openSeg := some (mk n) }, openedMessages svc (mk n))

/-- R27, R28: every due descriptor but the last is skipped and the last opens; with none due an UNSCHEDULED segment
opens (R27). -/
def openDue (x : ServiceSched) (svc : Svc) (r : ServiceRecord) (t : Mi) : ServiceSched × List Instr :=
  match (x.due t).getLast? with
  | none => x.openNew svc fun n => Segment.unscheduled n r t
  | some d =>
    let y := (x.due t).dropLast.foldl (fun y e => y.skip t e) { x with staging := x.notDue t }
    y.openNew svc fun n => Segment.staged n d t

/-- R27: the opening tick. -/
def openingTick (x : ServiceSched) (svc : Svc) (r : ServiceRecord) (t : Mi) : ServiceSched × List Instr :=
  let o := x.openDue svc r t
  ({ o.1 with
      state := .running, runInst := o.1.openSeg.map (·.inst) }, o.2)

/-- R19: the stopping tick. -/
def stoppingTick (x : ServiceSched) (svc : Svc) (t : Mi) : ServiceSched × List Instr :=
  let c := x.closeOpen svc .stop t
  ({ c.1 with state := .ready, stopPending := false }, c.2 ++ runEndedMessages svc (some t))

/-- R28: due descriptors take over from the open segment. -/
def switchTick (x : ServiceSched) (svc : Svc) (r : ServiceRecord) (t : Mi) : ServiceSched × List Instr :=
  let c := x.closeOpen svc .next t
  let o := c.1.openDue svc r t
  (o.1, c.2 ++ o.2)

/-- R29, R30: the open segment closes and an UNSCHEDULED one opens. -/
def replaceOpen (x : ServiceSched) (svc : Svc) (r : ServiceRecord) (cause : Cause) (t : Mi) :
    ServiceSched × List Instr :=
  let c := x.closeOpen svc cause t
  let o := c.1.openNew svc fun n => Segment.unscheduled n r t
  (o.1, c.2 ++ o.2)

/-- R29, R30: with no due descriptor, the overrun or rollover test of the open segment; `allowance` is the overrun
allowance of the segment's profile. -/
def lengthTick (x : ServiceSched) (svc : Svc) (r : ServiceRecord) (profiles : Vector Profile 8) (t : Mi) :
    ServiceSched × List Instr :=
  match x.openSeg with
  | none => (x, [])
  | some g =>
    if g.cls = .unscheduled then
      if g.actualStart + g.planned ≤ t then x.replaceOpen svc r .rollover t else (x, [])
    else if g.actualStart + g.planned + profiles[g.profile].overrun ≤ t then
      let o := x.replaceOpen svc r .overrun t
      (o.1, o.2 ++ [notice .scheduleOverrun (some svc) (some t) (.segment g.id)])
    else (x, [])

/-- The work of one service at MI tick `t` (2.4). -/
def tick (x : ServiceSched) (svc : Svc) (r : ServiceRecord) (profiles : Vector Profile 8) (t : Mi) (held : Bool) :
    ServiceSched × List Instr :=
  match x.state with
  | .disabled => (x, [])
  | .ready => (x, [])
  | .starting => x.openingTick svc r t
  | .running =>
    let y := x.markReference held
    if y.stopPending then y.stoppingTick svc t
    else if (y.due t).isEmpty then y.lengthTick svc r profiles t
    else y.switchTick svc r t

/-! ### Completion and the recording view -/

/-- R34: the flag that the recording view sets on a segment at its completion. -/
def markAtCompletion (x : ServiceSched) (g : Segment) : Segment :=
  match x.view, x.viewFrom with
  | .notRecording, some m => g.markFrom m
  | _, _ => g

/-- R32: the entries at the head of a closing set that complete, with their final flags, and those that stay. -/
def completeHeads (x : ServiceSched) : List Segment → List Segment × List Segment
  | [] => ([], [])
  | g :: gs =>
    if g.complete then
      let rest := x.completeHeads gs
      (x.markAtCompletion g :: rest.1, rest.2)
    else ([], g :: gs)

/-- R33, R34: a "recording state changed" message of the latest run. -/
def takeRecordingState (x : ServiceSched) (state : Recording) (m : Mi) : ServiceSched :=
  match state with
  | .notRecording =>
    { x with
      view := .notRecording
      viewFrom := if x.view = .notRecording then x.viewFrom else some m
      openSeg := x.openSeg.map fun g => { g with incomplete := true }
      closing := x.closing.map (Segment.markFrom m) }
  | .recording =>
    match x.view, x.viewFrom with
    | .notRecording, some m₀ =>
      { x with
        view := .recording
        viewFrom := some m
        openSeg := x.openSeg.map (Segment.markPeriod m₀ m)
        closing := x.closing.map (Segment.markPeriod m₀ m) }
    | .notRecording, none => { x with view := .recording, viewFrom := some m }
    | .recording, _ => x

/-- R32: a meter summary marked received. -/
def takeMeterSummary (x : ServiceSched) (inst : Nat) (m : MeterSummary) : ServiceSched :=
  { x with
    closing := x.closing.map fun g =>
      if g.inst = inst ∧ g.needsSummaries ∧ g.meterSummary = none then { g with meterSummary := some m } else g }

/-- R32: a caption summary marked received. -/
def takeCaptionSummary (x : ServiceSched) (inst : Nat) (c : CaptionSummary) : ServiceSched :=
  { x with
    closing := x.closing.map fun g =>
      if g.inst = inst ∧ g.needsSummaries ∧ g.captionSummary = none then { g with captionSummary := some c } else g }

/-! ### Staging -/

/-- The id of the open segment, if it has one (R22). -/
def openId (x : ServiceSched) : Option Nat := x.openSeg.bind (·.id)

/-- R22: the service takes no descriptor in its present state (check 4). -/
def closedToStaging (x : ServiceSched) : Bool :=
  x.state == .disabled || (x.state == .running && x.stopPending)

/-- R22: checks 4 to 7; the status of the first that fails. -/
def stageCheck (x : ServiceSched) (id : Nat) (start : Mi) : Option Status :=
  if x.closedToStaging then some .state
  else if stagingPlaces ≤ x.staging.length then some .full
  else if (match x.staging.getLast? with
      | none => false
      | some d => decide (start ≤ d.start)) then some .order
  else if x.staging.any (·.id == id) || x.openId == some id then some .conflict
  else none

/-- R21: a descriptor joins the queue at its tail. -/
def addDescriptor (x : ServiceSched) (d : Descriptor) : ServiceSched :=
  { x with staging := x.staging ++ [d] }

/-- R23: the effect and answer of WITHDRAW in a service that is not DISABLED. -/
def withdraw (x : ServiceSched) (id : Nat) : ServiceSched × Status :=
  if x.staging.any (·.id == id) then ({ x with staging := x.staging.filter (·.id != id) }, .ok)
  else if x.openId = some id then (x, .tooLate)
  else (x, .notFound)

/-- R18: the effect of STOP SERVICE, or `none` where it is refused with STATE. -/
def stop (x : ServiceSched) (svc : Svc) : Option (ServiceSched × List Instr) :=
  match x.state with
  | .disabled => none
  | .ready => none
  | .starting => some ({ x with state := .ready, staging := [] }, runEndedMessages svc none)
  | .running => some (if x.stopPending then (x, []) else ({ x with stopPending := true, staging := [] }, []))

/-- R17, R33: the service is STARTING; the from-MI is DEDUCED (log entry 7). -/
def start (x : ServiceSched) (time : Option Mi) : ServiceSched :=
  { x with state := .starting, view := .recording, viewFrom := time, runInst := none }

/-- R35: the answer of READ SCHEDULE. -/
def scheduleView (x : ServiceSched) (time : Option Mi) (groups : Vector (BitVec 16) 4) : ScheduleView where
  state := x.state
  stopPending := x.stopPending
  time := time
  openSeg := x.openSeg.map fun g =>
    { inst := g.inst, id := g.id, cls := g.cls, profile := g.profile, stagedStart := g.stagedStart
      actualStart := g.actualStart, planned := g.planned, elapsed := time.getD 0 - g.actualStart
      late := g.late, referenceLost := g.referenceLost, incomplete := g.incomplete }
  staging := x.staging.map fun d => (d, match time with
    | none => false
    | some m => decide (d.start ≤ m))
  closing := x.closing.map fun g =>
    { inst := g.inst, id := g.id, cause := g.cause, actualStart := g.actualStart, endMi := g.endMi
      needsSummary := g.needsSummaries, meterReceived := g.meterSummary.isSome
      captReceived := g.captionSummary.isSome }
  view := x.view
  viewFrom := x.viewFrom
  groups := groups

end ServiceSched

/-! ### The unit in the part -/

/-- The descriptor that STAGE and GROUP STAGE store, with whether its planned duration was replaced; `none` where
check 2 or 3 of R22 fails. -/
def readDescriptor (a : DescArgs) : Option (Clamped Descriptor) := do
  let cls ← stageClass a.cls
  let profile ← asFin 8 a.profile
  let planned := plannedDuration a.planned
  some ⟨⟨a.id, a.start, cls, profile, planned.val⟩, planned.changed⟩

/-- R22: the late indication. -/
def lateIndication (time : Option Mi) (start : Mi) : Bool :=
  match time with
  | none => false
  | some m => decide (start ≤ m)

namespace State

/-- R32: the head of the closing set of a service completes, and each next one, and they are taken by the compliance
unit. -/
def settleClosing (s : State) (i : Svc) : State :=
  let x := s.sched[i]
  let h := x.completeHeads x.closing
  if h.1.isEmpty then s
  else (s.setSched i { x with closing := h.2 }).complete (h.1.map (.completion i))

/-- The work of service `i` at MI tick `t` (2.4), which begins interval `k` (R9), with the completions that it brings (R32). -/
def scheduleTick (s : State) (t : Mi) (held : Bool) (k : Int) (i : Svc) : State :=
  let r := s.sched[i].tick i s.map[i] s.compliance.profiles t held
  (((s.setSched i r.1).noteRun i k s.sched[i].state).send r.2).settleClosing i

/-- R26: the members of a group that are not DISABLED, in ascending order. -/
def groupMembers (s : State) (g : Fin 4) : List Svc :=
  allSvcs.filter fun i => s.groups[g].getLsbD i.val && !(s.sched[i].state == .disabled)

/-- R26: the group has a member that is READY or RUNNING. One that is STARTING is none: the rule of the request states otherwise
than the general words of R16. -/
def groupReady (s : State) (g : Fin 4) : Bool :=
  (s.groupMembers g).any fun i => s.sched[i].state == .ready || s.sched[i].state == .running

/-- R26: the first member at which a check fails, with its status. -/
def groupFailure (s : State) (d : Descriptor) (members : List Svc) : Option (Svc × Status) :=
  members.findSome? fun i => (s.sched[i].stageCheck d.id d.start).map fun st => (i, st)

end State

/-- SCHEDULE_MI_TICK (R19, R27 to R32). -/
def execScheduleMiTick (t : Mi) (held : Bool) (s : State) : Result :=
  let k := s.begunInterval t held
  .next (allSvcs.foldl (fun x i => x.scheduleTick t held k i) (s.arrive (.scheduleMiTick t held)))

/-- START SERVICE (R17, R9, R99). -/
def execStartService (rq : Req) (svc : Nat) (s : State) : Result :=
  let s := s.arrive (.startService rq svc)
  .next
    (match asFin 16 svc with
    | none => s.refuse rq .badArgument
    | some i =>
      if s.sched[i].state = .ready ∧ s.now.isSome then
        ({ s.setSched i (s.sched[i].start s.now) with
            views := s.views.set i .present
            compliance := { s.compliance with refs := s.compliance.refs.set i none } }.send
          (runStartedMessages i)).respond rq .ok .nothing
      else s.refuse rq .state)

/-- STOP SERVICE (R18). -/
def execStopService (rq : Req) (svc : Nat) (s : State) : Result :=
  let s := s.arrive (.stopService rq svc)
  .next
    (match asFin 16 svc with
    | none => s.refuse rq .badArgument
    | some i =>
      match s.sched[i].stop i with
      | none => s.refuse rq .state
      | some r => ((s.setSched i r.1).send r.2).respond rq .ok .nothing)

/-- STAGE (R22). -/
def execStage (rq : Req) (svc : Nat) (desc : DescArgs) (s : State) : Result :=
  let s := s.arrive (.stage rq svc desc)
  .next
    (match asFin 16 svc, readDescriptor desc with
    | some i, some d =>
      match s.sched[i].stageCheck d.val.id d.val.start with
      | some st => s.refuse rq st
      | none =>
        (s.setSched i (s.sched[i].addDescriptor d.val)).respondOk rq d.changed
          (.late (lateIndication s.now d.val.start))
    | _, _ => s.refuse rq .badArgument)

/-- WITHDRAW (R23). -/
def execWithdraw (rq : Req) (svc : Nat) (id : Nat) (s : State) : Result :=
  let s := s.arrive (.withdraw rq svc id)
  .next
    (match asFin 16 svc with
    | none => s.refuse rq .badArgument
    | some i =>
      if s.sched[i].state = .disabled then s.refuse rq .state
      else
        let r := s.sched[i].withdraw id
        (s.setSched i r.1).respond rq r.2 .nothing)

/-- CONFIGURE GROUP (R25). -/
def execConfigureGroup (rq : Req) (group members : Nat) (s : State) : Result :=
  let s := s.arrive (.configureGroup rq group members)
  .next
    (match asFin 4 group with
    | none => s.refuse rq .badArgument
    | some g =>
      if members < 2 ^ 16 then
        { s with groups := s.groups.set g (BitVec.ofNat 16 members) }.respond rq .ok .nothing
      else s.refuse rq .badArgument)

/-- GROUP STAGE (R26). A group with no member that is READY or RUNNING is refused before the checks of its STARTING members are made
(DESIGN CHOICE, log entry 27). -/
def execGroupStage (rq : Req) (group : Nat) (desc : DescArgs) (s : State) : Result :=
  let s := s.arrive (.groupStage rq group desc)
  .next
    (match asFin 4 group, readDescriptor desc with
    | some g, some d =>
      let members := s.groupMembers g
      if !s.groupReady g then s.refuse rq .state
      else
        match s.groupFailure d.val members with
        | some f => s.respond rq f.2 (.member f.1)
        | none =>
          (members.foldl (fun x i => x.setSched i (x.sched[i].addDescriptor d.val)) s).respondOk rq d.changed
            (.late (lateIndication s.now d.val.start))
    | _, _ => s.refuse rq .badArgument)

/-- READ SCHEDULE (R35). -/
def execReadSchedule (rq : Req) (svc : Nat) (s : State) : Result :=
  let s := s.arrive (.readSchedule rq svc)
  .next
    (match asFin 16 svc with
    | none => s.refuse rq .badArgument
    | some i => s.respond rq .ok (.schedule (s.sched[i].scheduleView s.now s.groups)))

/-- RECORDING_STATE_CHANGED (R33, R34); a message of a run that has ended is discarded. -/
def execRecordingStateChanged (i : Svc) (state : Recording) (m : Mi) (inst : Nat) (s : State) : Result :=
  let s := s.arrive (.recordingStateChanged i state m inst)
  .next
    (if s.sched[i].runInst = some inst then s.setSched i (s.sched[i].takeRecordingState state m) else s)

/-- METER_SUMMARY_ARRIVAL (R32). -/
def execMeterSummaryArrival (i : Svc) (inst : Nat) (summary : MeterSummary) (s : State) : Result :=
  let s := s.arrive (.meterSummaryArrival i inst summary)
  .next ((s.setSched i (s.sched[i].takeMeterSummary inst summary)).settleClosing i)

/-- CAPTION_SUMMARY_ARRIVAL (R32). -/
def execCaptionSummaryArrival (i : Svc) (inst : Nat) (summary : CaptionSummary) (s : State) : Result :=
  let s := s.arrive (.captionSummaryArrival i inst summary)
  .next ((s.setSched i (s.sched[i].takeCaptionSummary inst summary)).settleClosing i)

end Sys2Proof.Machine
end

