-- ==== Sys2Proof/Machine/Reset.lean ====
section
/-!
DEFINITION. The two resets of the part (3.8): power-on reset, and the WARM RESET request.
-/

namespace Sys2Proof.Machine

/-! ### Warm reset, block by block -/

/-- R37: a segment as a warm reset hands it over; a skipped segment keeps its cause. -/
def Segment.reset (g : Segment) : Segment :=
  if g.needsSummaries then { g with cause := some .reset } else g

namespace ServiceSched

/-- R37: the segments that a warm reset hands over, in order. -/
def handedOver (x : ServiceSched) (time : Option Mi) : List Segment :=
  x.closing.map Segment.reset
    ++ (match x.openSeg with
        | none => []
        | some g => [g.close .reset (time.getD g.actualStart)])

/-- R37: the schedule state of a service after a warm reset. -/
def warmReset (x : ServiceSched) (time : Option Mi) : ServiceSched :=
  { x with
    state := if x.state = .disabled then .disabled else .ready
    stopPending := false
    staging := []
    openSeg := none
    closing := []
    view := .recording
    viewFrom := time
    runInst := none }

end ServiceSched

/-- R142: a service's recorder at a warm reset: an ACTIVE run is cut at the MI in progress. -/
def Work.warmReset (w : Work) (a : Around) : Work :=
  let c := match w.x.run with
    | .active => w.cut a (a.time.getD 0)
    | .waiting => w.idle
    | .idle => w.idle
  { c with x := { c.x with runStart := none, enable := none } }

/-- R142, R168: every IN_TRANSFER slot is SEALED again. -/
def Store.returnAll (x : Store) : Store :=
  { x with slots := x.slots.map fun e => if e.2.isInTransfer then (e.1, { e.2 with state := .sealed }) else e }

/-- A run started message under way. -/
def isRunStarted : Instr → Bool
  | .meterRunStarted _ => true
  | .checkerRunStarted _ => true
  | .recorderRunStarted _ => true
  | _ => false

/-- The WARM RESET of a request under way. -/
def isWarmResetOf (rq : Req) : Instr → Bool
  | .warmReset r _ => r == rq
  | _ => false

namespace State

/-- R179: a request of another port that has entered service has been passed to its block. -/
def passServed (s : State) : State := allPorts.foldl (fun x p => x.serve p) s

/-- R185, R186: the notice router at a warm reset. -/
def warmRouter (s : State) : State :=
  { s with router := { s.router with ports := mapVec PortNotices.warmReset s.router.ports } }

/-- R37, R118: the schedule unit and the compliance unit at a warm reset. The clearing of the references is handed over on its
own, so that it stands behind a write only where that write must wait. The interval in progress is no longer counted for R9 (log
entry 5). -/
def warmSchedule (s : State) : State :=
  let handed := allSvcs.flatMap fun i => (s.sched[i].handedOver s.now).map (Waiting.completion i)
  { s with
    sched := mapVec (fun x : ServiceSched => x.warmReset s.now) s.sched
    views := Vector.replicate 16 .present
    openSpans := mapVec (List.map (OpenSpan.endAt s.edges)) s.openSpans }.complete handed |>.complete [Waiting.clearReferences]

/-- R56, R93: the meter and the checker at a warm reset. -/
def warmMeasures (s : State) : State :=
  { s with meter := mapVec MeterSvc.warmReset s.meter, checker := mapVec CheckerSvc.warmReset s.checker }

/-- R142, R168: the recorder and the archive queue at a warm reset. -/
def warmRecorder (s : State) : State :=
  let c := allSvcs.foldl (fun x i => x.worked i ((x.work i).warmReset (x.around i))) s
  { c with store := c.store.returnAll, archive := { c.archive with takes := [] } }.testBacklog

/-- R189: the increments under way are taken, and then every counter is zeroed. -/
def warmBank (s : State) : State :=
  let t := (s.inFlight.filterMap incrementOf).foldl (fun x c => x.bankAdd c)
    { s with inFlight := s.inFlight.filter fun c => (incrementOf c).isNone }
  { t with bank := t.bank.zeroed }

/-- A run started message under way belongs to a run that the warm reset has ended (DEDUCED, log entry 13). -/
def dropRunStarted (s : State) : State :=
  { s with inFlight := s.inFlight.filter fun c => !isRunStarted c }

/-- R175, R179: the ports at a warm reset: requests not in service are removed, and the straps are read again. -/
def warmPorts (s : State) (t : Straps) : State :=
  { s with
    ports := Vector.ofFn fun p : PortNo =>
      { s.ports[p].keepServed with strap := (rolesOf t)[p], role := roleHeld (rolesOf t) p } }

end State

/-- WARM RESET (R179): every block has its effect as one event, and the response is OK. -/
def execWarmReset (rq : Req) (straps : Straps) (s : State) : Result :=
  let s := { s with inFlight := s.inFlight.filter fun c => !isWarmResetOf rq c }
  .next
    (((s.passServed.warmRouter.dropRunStarted.warmSchedule.warmMeasures.warmRecorder.warmBank.warmPorts straps)).respond
      rq .ok .nothing)

/-- POWER_ON_RESET (R1, R12, R38, R57, R94, R119, R143, R144, R153, R168, R175, R183, R185, R189). -/
def execPowerOnReset (straps : Straps) (s : State) : Result :=
  .next
    { State.reset with
      ports := Vector.ofFn fun p => Port.afterPower straps p s.ports[p].passes
      pending := s.pending }

end Sys2Proof.Machine
end

