-- ==== Sys2Proof/Machine/ServiceMap.lean ====
section
/-!
DEFINITION. The service map (1.5): CONFIGURE SERVICE.
-/

namespace Sys2Proof.Machine

/-- R13: a service whose record may be written. -/
def SvcState.configurable : SvcState → Bool
  | .disabled => true
  | .ready => true
  | .starting => false
  | .running => false

/-- CONFIGURE SERVICE (R13, R14). A structural error is found before the service's state is looked at (DESIGN CHOICE,
log entry 6). -/
def execConfigureService (rq : Req) (svc : Nat) (args : ServiceArgs) (s : State) : Result :=
  let s := s.arrive (.configureService rq svc args)
  .next
    (match asFin 16 svc, readServiceArgs args with
    | some i, some r =>
      if s.sched[i].state.configurable then
        ({ s with map := s.map.set i r.val }.setSched i { s.sched[i] with state := .ready }).respondOk rq r.changed
          .nothing
      else s.refuse rq .state
    | _, _ => s.refuse rq .badArgument)

end Sys2Proof.Machine
end

