-- ==== Sys2Proof/Machine/Station.lean ====
section
/-!
DEFINITION. The station time unit (1.1): period edges, the reference watch, SET TIME.
-/

namespace Sys2Proof.Machine

/-- The interval of the reference watch, in µs (R3). -/
def watchMicros : Nat := 110000

/-- The interval of the oscillator, in µs (R3). -/
def oscillatorMicros : Nat := 100000

/-- R1: the station time that a period edge leaves. -/
def Station.nextTime (x : Station) : Option Mi := x.time.map miNext

/-- R5: the interval that an edge of a kind ends was reference-held when the edge that began it and this one are
reference edges. -/
def Station.endsHeld (x : Station) (kind : EdgeKind) : Bool :=
  x.kind == .reference && kind == .reference

/-- R1, R5, R6: the station time unit after a period edge; the reported indication is that of the last MI ended, so an
edge that ends no MI leaves it. -/
def Station.edge (x : Station) (kind : EdgeKind) (instant : Nat) (ref : RefState) : Station where
  time := x.nextTime
  ref := ref
  instant := instant
  kind := kind
  held := if x.time.isSome then x.endsHeld kind else x.held

/-- R1, R5, R8: what a period edge sends: the edge to every audio lane and to the archive queue, and while station
time is set the MI tick to the schedule unit, the meter, the checker and the recorder. -/
def edgeMessages (time : Option Mi) (held : Bool) : List Instr :=
  allLanes.map (fun l => .lanePeriodEdge l ⟨time, held⟩)
    ++ (match time with
        | none => []
        | some t => [.scheduleMiTick t held, .meterMiTick t, .checkerMiTick t, .recorderMiTick t])
    ++ [.archivePeriodEdge time]

/-- A period edge of a kind at an instant, after which the reference state is `ref` (R1, R3, R4). -/
def State.periodEdge (s : State) (kind : EdgeKind) (instant : Nat) (ref : RefState) : State :=
  { s with station := s.station.edge kind instant ref, edges := s.edges + 1 }.send
    (edgeMessages s.station.nextTime (s.station.endsHeld kind))

/-- REFERENCE_EDGE: a period edge in either state (R3, R4); the one that ends FREE_RUN raises REFERENCE_RESTORED. -/
def execReferenceEdge (elapsed : Nat) (s : State) : Result :=
  let s' := s.periodEdge .reference (s.station.instant + elapsed) .locked
  .next
    (match s.station.ref with
    | .locked => s'
    | .freeRun => s'.send [notice .referenceRestored none s.station.nextTime .nothing])

/-- REFERENCE_WATCH_EXPIRY (R3): it can come only in LOCKED (DEDUCED, log entry 5). -/
def execReferenceWatchExpiry (s : State) : Result :=
  .next
    (match s.station.ref with
    | .locked =>
      (s.periodEdge .oscillator (s.station.instant + watchMicros) .freeRun).send
        [notice .referenceFailed none s.station.nextTime .nothing]
    | .freeRun => s)

/-- OSCILLATOR_EDGE (R3, R4): the oscillator issues edges only in FREE_RUN (DEDUCED, log entry 5). -/
def execOscillatorEdge (s : State) : Result :=
  .next
    (match s.station.ref with
    | .locked => s
    | .freeRun => s.periodEdge .oscillator (s.station.instant + oscillatorMicros) .freeRun)

/-- SET TIME (R2); the request carries a number of 40 bits. -/
def execSetTime (rq : Req) (mi : Mi) (s : State) : Result :=
  let s := s.arrive (.setTime rq mi)
  .next
    (if allSvcs.any s.acting then s.refuse rq .state
    else { s with station := { s.station with time := some (mi % miModulus) } }.respond rq .ok .nothing)

end Sys2Proof.Machine
end

