-- ==== Sys2Proof/Machine/Status.lean ====
section
/-!
DEFINITION. READ STATUS (R181), the parts of its answer and the shares of a part that two blocks take.
-/

namespace Sys2Proof.Machine

namespace State

/-- R141: one service's line of the recorder part. -/
def recorderSvcView (s : State) (i : Svc) : RecorderSvcView :=
  let x := s.recorder[i]
  let slot := x.span.bind (·.slot)
  { run := x.run
    enable := x.enable
    span := x.span.map (·.start)
    slot := slot
    state := x.state
    keep := (slot.bind fun n => slotAt n s.store.slots).map (·.keepUsed) }

/-- R141: the recorder's share of the recorder part. -/
def recorderView (s : State) : RecorderView where
  slotCount := s.store.slotCount
  free := s.store.freeCount
  filling := (s.store.those Slot.isFilling).length
  sealed := (s.store.those Slot.isSealed).length
  inTransfer := (s.store.those Slot.isInTransfer).length
  archived := (s.store.those Slot.isArchived).length
  archivedUnheld := (s.store.those Slot.isReusable).length
  reusable := s.store.reusableCount
  sealCount := s.store.sealCount
  reserve0 := s.store.reserve0
  reserve1 := s.store.reserve1
  reserve2 := s.store.reserve2
  threshold := s.store.threshold
  backlog := s.store.backlogCount
  backlogState := s.store.backlog
  services := allSvcs.map s.recorderSvcView

/-- R181: one port's line of the port part. -/
def portView (s : State) (p : PortNo) : PortView :=
  let x := s.ports[p]
  ⟨x.strap, x.role, x.link == .up, x.queue.length⟩

/-- R181: the part that a selector selects, where one block takes it whole. -/
def statusPart (s : State) (reader : PortNo) (selector : Nat) : Option Answer :=
  if selector = 0 then some (.station s.station.time s.station.ref s.station.held)
  else if selector = 17 then some (.compliance s.compliance.view)
  else if selector = 19 then some (.ports (allPorts.map s.portView) reader)
  else none

/-- R181: the share of the first block, where two blocks take the part that a selector selects. -/
def firstShare (s : State) (selector : Nat) : Option StatusShare :=
  if selector = 18 then some (.recorder s.recorderView)
  else if selector = 0 then none
  else (asFin 16 (selector - 1)).map fun i => .service i s.sched[i].state s.sched[i].stopPending

/-- R181: the second block adds its share: the caption checker (R92), or the clip index (R155). -/
def withSecondShare (s : State) : StatusShare → Answer
  | .service i state stopPending => .service state stopPending s.checker[i].view
  | .recorder v => .recorder v s.clips.pool.length

/-- R181: the READ STATUS of a request that is between its two shares. -/
def halfStatus (s : State) (rq : Req) (selector : Nat) : Option HalfStatus :=
  s.shares.find? fun h => h.rq == rq && h.selector == selector

end State

/-- READ STATUS (R181, R6, R16, R92, R117, R141). A part that two blocks take is taken in two events, between which others may
fall: the first block takes its share and hands the request on, and the second adds its own and answers. The request on its way
between them is READ_STATUS under way once more (DESIGN CHOICE, log entry 19). -/
def execReadStatus (rq : Req) (selector : Nat) (s : State) : Result :=
  let s := s.arrive (.readStatus rq selector)
  .next
    (match s.halfStatus rq selector with
    | some h => { s with shares := s.shares.erase h }.respond rq .ok (s.withSecondShare h.share)
    | none =>
      match s.firstShare selector, s.statusPart rq.port selector with
      | some x, _ => { s with shares := s.shares ++ [HalfStatus.mk rq selector x] }.send [.readStatus rq selector]
      | none, some a => s.respond rq .ok a
      | none, none => s.refuse rq .badArgument)

end Sys2Proof.Machine
end

