-- ==== Sys2Proof/Machine/Dispatch.lean ====
section
/-! DEFINITION. One arm for each command of the table, each a call of the command's meaning. -/

namespace Sys2Proof.Machine

def exec (i : Instr) (s : State) : Host.Outcome State Fault Refusal :=
  match i with
  | .powerOnReset straps => Sys2Proof.Machine.execPowerOnReset straps s
  | .warmReset rq straps => Sys2Proof.Machine.execWarmReset rq straps s
  | .referenceEdge elapsed => Sys2Proof.Machine.execReferenceEdge elapsed s
  | .referenceWatchExpiry => Sys2Proof.Machine.execReferenceWatchExpiry s
  | .oscillatorEdge => Sys2Proof.Machine.execOscillatorEdge s
  | .lockGained lane => Sys2Proof.Machine.execLockGained lane s
  | .lockLost lane => Sys2Proof.Machine.execLockLost lane s
  | .laneSampleFrame lane frame => Sys2Proof.Machine.execLaneSampleFrame lane frame s
  | .lanePeriodEdge lane edge => Sys2Proof.Machine.execLanePeriodEdge lane edge s
  | .laneCaptionPacket lane packet => Sys2Proof.Machine.execLaneCaptionPacket lane packet s
  | .laneProxyFrame lane frame => Sys2Proof.Machine.execLaneProxyFrame lane frame s
  | .setTime rq mi => Sys2Proof.Machine.execSetTime rq mi s
  | .readStatus rq selector => Sys2Proof.Machine.execReadStatus rq selector s
  | .configureService rq svc args => Sys2Proof.Machine.execConfigureService rq svc args s
  | .startService rq svc => Sys2Proof.Machine.execStartService rq svc s
  | .stopService rq svc => Sys2Proof.Machine.execStopService rq svc s
  | .stage rq svc desc => Sys2Proof.Machine.execStage rq svc desc s
  | .withdraw rq svc id => Sys2Proof.Machine.execWithdraw rq svc id s
  | .configureGroup rq group members => Sys2Proof.Machine.execConfigureGroup rq group members s
  | .groupStage rq group desc => Sys2Proof.Machine.execGroupStage rq group desc s
  | .readSchedule rq svc => Sys2Proof.Machine.execReadSchedule rq svc s
  | .scheduleMiTick tick held => Sys2Proof.Machine.execScheduleMiTick tick held s
  | .recordingStateChanged svc state mi inst => Sys2Proof.Machine.execRecordingStateChanged svc state mi inst s
  | .meterRunStarted svc => Sys2Proof.Machine.execMeterRunStarted svc s
  | .meterSegmentOpened svc msg => Sys2Proof.Machine.execMeterSegmentOpened svc msg s
  | .meterSegmentClosed svc msg => Sys2Proof.Machine.execMeterSegmentClosed svc msg s
  | .meterRunEnded svc endMi => Sys2Proof.Machine.execMeterRunEnded svc endMi s
  | .meterSampleFrame svc mi frame => Sys2Proof.Machine.execMeterSampleFrame svc mi frame s
  | .meterJudgment svc mi judgment => Sys2Proof.Machine.execMeterJudgment svc mi judgment s
  | .meterMiTick tick => Sys2Proof.Machine.execMeterMiTick tick s
  | .meterMiCompletion svc => Sys2Proof.Machine.execMeterMiCompletion svc s
  | .meterSummary svc => Sys2Proof.Machine.execMeterSummary svc s
  | .startSurvey rq svc classes => Sys2Proof.Machine.execStartSurvey rq svc classes s
  | .stopSurvey rq svc => Sys2Proof.Machine.execStopSurvey rq svc s
  | .readSurvey rq svc => Sys2Proof.Machine.execReadSurvey rq svc s
  | .readMeter rq svc => Sys2Proof.Machine.execReadMeter rq svc s
  | .checkerRunStarted svc => Sys2Proof.Machine.execCheckerRunStarted svc s
  | .checkerSegmentOpened svc msg => Sys2Proof.Machine.execCheckerSegmentOpened svc msg s
  | .checkerSegmentClosed svc msg => Sys2Proof.Machine.execCheckerSegmentClosed svc msg s
  | .checkerRunEnded svc endMi => Sys2Proof.Machine.execCheckerRunEnded svc endMi s
  | .checkerCaptionPacket svc packet => Sys2Proof.Machine.execCheckerCaptionPacket svc packet s
  | .checkerMiTick tick => Sys2Proof.Machine.execCheckerMiTick tick s
  | .rowPersistenceExpiry svc row => Sys2Proof.Machine.execRowPersistenceExpiry svc row s
  | .captionStreamExpiry svc => Sys2Proof.Machine.execCaptionStreamExpiry svc s
  | .miResult svc result => Sys2Proof.Machine.execMiResult svc result s
  | .captionCombination svc => Sys2Proof.Machine.execCaptionCombination svc s
  | .captionSummary svc => Sys2Proof.Machine.execCaptionSummary svc s
  | .meterSummaryArrival svc inst summary => Sys2Proof.Machine.execMeterSummaryArrival svc inst summary s
  | .captionSummaryArrival svc inst summary => Sys2Proof.Machine.execCaptionSummaryArrival svc inst summary s
  | .recordWrite => Sys2Proof.Machine.execRecordWrite s
  | .holdAnswer hold => Sys2Proof.Machine.execHoldAnswer hold s
  | .writeProfile rq profile args => Sys2Proof.Machine.execWriteProfile rq profile args s
  | .collect rq seq => Sys2Proof.Machine.execCollect rq seq s
  | .readLog rq seq => Sys2Proof.Machine.execReadLog rq seq s
  | .recorderRunStarted svc => Sys2Proof.Machine.execRecorderRunStarted svc s
  | .onAirMessage svc msg => Sys2Proof.Machine.execOnAirMessage svc msg s
  | .recorderRunEnded svc endMi => Sys2Proof.Machine.execRecorderRunEnded svc endMi s
  | .recorderSampleFrame svc mi frame => Sys2Proof.Machine.execRecorderSampleFrame svc mi frame s
  | .recorderJudgment svc mi judgment => Sys2Proof.Machine.execRecorderJudgment svc mi judgment s
  | .recorderCaptionPacket svc mi packet => Sys2Proof.Machine.execRecorderCaptionPacket svc mi packet s
  | .recorderProxyFrame svc mi frame => Sys2Proof.Machine.execRecorderProxyFrame svc mi frame s
  | .recorderMiTick tick => Sys2Proof.Machine.execRecorderMiTick tick s
  | .spanBoundary svc => Sys2Proof.Machine.execSpanBoundary svc s
  | .configureStore rq slots => Sys2Proof.Machine.execConfigureStore rq slots s
  | .setReserves rq args => Sys2Proof.Machine.execSetReserves rq args s
  | .readChunkReview rq slot svc start offset length => Sys2Proof.Machine.execReadChunkReview rq slot svc start offset length s
  | .appendStored svc slot start => Sys2Proof.Machine.execAppendStored svc slot start s
  | .appendGap svc start => Sys2Proof.Machine.execAppendGap svc start s
  | .removeEntry svc slot start => Sys2Proof.Machine.execRemoveEntry svc slot start s
  | .markLost svc slot start => Sys2Proof.Machine.execMarkLost svc slot start s
  | .findClip rq svc mi => Sys2Proof.Machine.execFindClip rq svc mi s
  | .createHold rq svc fromMi toMi => Sys2Proof.Machine.execCreateHold rq svc fromMi toMi s
  | .automaticHoldRequest svc fromMi toMi seq => Sys2Proof.Machine.execAutomaticHoldRequest svc fromMi toMi seq s
  | .releaseHold rq hold => Sys2Proof.Machine.execReleaseHold rq hold s
  | .fixHold rq hold => Sys2Proof.Machine.execFixHold rq hold s
  | .readHolds rq => Sys2Proof.Machine.execReadHolds rq s
  | .take rq duration => Sys2Proof.Machine.execTake rq duration s
  | .readChunk rq slot token offset length => Sys2Proof.Machine.execReadChunk rq slot token offset length s
  | .confirm rq slot token => Sys2Proof.Machine.execConfirm rq slot token s
  | .returnTake rq slot token => Sys2Proof.Machine.execReturnTake rq slot token s
  | .readArchiveStatus rq => Sys2Proof.Machine.execReadArchiveStatus rq s
  | .archivePeriodEdge begun => Sys2Proof.Machine.execArchivePeriodEdge begun s
  | .takeTimerExpiry slot => Sys2Proof.Machine.execTakeTimerExpiry slot s
  | .linkAlignment port => Sys2Proof.Machine.execLinkAlignment port s
  | .linkDown port => Sys2Proof.Machine.execLinkDown port s
  | .linkSilenceTimeout port => Sys2Proof.Machine.execLinkSilenceTimeout port s
  | .frameReceived port => Sys2Proof.Machine.execFrameReceived port s
  | .requestService port => Sys2Proof.Machine.execRequestService port s
  | .noticeArrival notice => Sys2Proof.Machine.execNoticeArrival notice s
  | .attentionPulse port => Sys2Proof.Machine.execAttentionPulse port s
  | .setRoute rq route args => Sys2Proof.Machine.execSetRoute rq route args s
  | .setAttentionMode rq port mode => Sys2Proof.Machine.execSetAttentionMode rq port mode s
  | .readNotice rq => Sys2Proof.Machine.execReadNotice rq s
  | .counterIncrement counter => Sys2Proof.Machine.execCounterIncrement counter s
  | .setAlertMask rq kinds => Sys2Proof.Machine.execSetAlertMask rq kinds s
  | .readCounters rq selector => Sys2Proof.Machine.execReadCounters rq selector s
  | .clearAlerts rq selector => Sys2Proof.Machine.execClearAlerts rq selector s
  | .clearCounters rq selector => Sys2Proof.Machine.execClearCounters rq selector s
  | .startSymbol port => Sys2Proof.Machine.execStartSymbol port s
  | .dataSymbol port byte => Sys2Proof.Machine.execDataSymbol port byte s

end Sys2Proof.Machine
end

