-- ==== Sys2Proof/Machine/Step.lean ====
section
/-!
DEFINITION. One step of the part: the command at the front of the queue, or with none waiting the oldest message under
way.
-/

namespace Sys2Proof.Machine

/-- One step (DESIGN CHOICE, log entry 1): the command at the front of the queue is taken; with an empty queue the oldest message under
way arrives; with no message under way the part idles. -/
def step (s : State) : Host.Outcome State Fault Refusal :=
  match s.pending with
  | c :: cs => exec c { s with pending := cs }
  | [] =>
    match s.inFlight with
    | c :: _ => exec c s
    | [] => .next s

/-- The state with the command that a word spells put at the front of its queue. -/
def State.withFetchWord (s : State) (nbits w : Nat) : State :=
  match decodeTableWord nbits w with
  | none => s
  | some c => { s with pending := c :: s.pending }

end Sys2Proof.Machine
end

