-- ==== Sys2Proof/Safety.lean ====
section
/-!
DEFINITION. What a good state of the part is, block by block: the conditions that the manual states of the part's
state at every moment. They are the terms of the statements about every step.
-/

namespace Sys2Proof.Machine

/-! ### Station time (1.1) -/

/-- R1, R3, R4: station time is a number of 40 bits, and the part is LOCKED exactly when its last period edge was a
reference edge. -/
def Station.Good (x : Station) : Prop :=
  (∀ m, x.time = some m → m < 2 ^ 40) ∧ (x.ref = .locked ↔ x.kind = .reference)

/-! ### The service map and the profile table (R12, R95) -/

/-- R12: every number of a service record lies in its range. -/
def ServiceRecord.Good (r : ServiceRecord) : Prop :=
  1 ≤ r.channels.length ∧ r.channels.length ≤ 6 ∧
  -700 ≤ r.speechFloor ∧ r.speechFloor ≤ 0 ∧
  10 ≤ r.streamTimeout ∧ r.streamTimeout ≤ 600 ∧
  600 ≤ r.unschedPlanned ∧ r.unschedPlanned ≤ 36000 ∧
  r.holdGuard ≤ 600

/-- R12, R13: the records of the map are good, and so are those that the blocks took from it at run started. -/
def State.GoodRecords (s : State) : Prop :=
  ∀ i : Svc, s.map[i].Good ∧ s.meter[i].record.Good ∧ s.checker[i].record.Good ∧ s.recorder[i].record.Good

/-- R95: every number of a profile lies in its range. -/
def Profile.Good (p : Profile) : Prop :=
  -700 ≤ p.target ∧ p.target ≤ 0 ∧ p.tolerance ≤ 100 ∧
  (∀ c, p.shortTerm = some c → -700 ≤ c ∧ c ≤ 50) ∧
  (∀ c, p.peak = some c → -600 ≤ c ∧ c ≤ 0) ∧
  (∀ n, p.relative = some n → n ≤ 100) ∧
  p.minCoverage ≤ 1000 ∧
  (∀ n, p.maxGap = some n → 1 ≤ n ∧ n ≤ 6000) ∧
  p.overrun ≤ 36000

/-! ### The schedule unit (R16, R21, R32) -/

/-- R21: a staging queue holds at most four descriptors in strictly ascending start MI, none sharing a segment id with
another or with the open segment. -/
def ServiceSched.GoodStaging (x : ServiceSched) : Prop :=
  x.staging.length ≤ 4 ∧
  x.staging.Pairwise (fun a b => a.start < b.start) ∧
  x.staging.Pairwise (fun a b => a.id ≠ b.id) ∧
  ∀ d ∈ x.staging, x.openId ≠ some d.id

/-- R16 and the table of 2.1.1: a service is RUNNING exactly when it has an open segment; only a RUNNING one holds the
stop-pending mark, and its queue is empty under that mark; a DISABLED one has an empty queue. -/
def ServiceSched.GoodState (x : ServiceSched) : Prop :=
  (x.state = .running ↔ x.openSeg.isSome) ∧
  (x.stopPending = true → x.state = .running ∧ x.staging = []) ∧
  (x.state = .disabled → x.staging = [])

/-- R31, R32: every segment of the closing set has its end and its cause, and the head of the set still waits for a
summary. -/
def ServiceSched.GoodClosing (x : ServiceSched) : Prop :=
  (∀ g ∈ x.closing, g.endMi.isSome ∧ g.cause.isSome) ∧
  ∀ g, x.closing.head? = some g →
    g.cause ≠ some .skipped ∧ (g.meterSummary = none ∨ g.captionSummary = none)

/-! ### The loudness meter (R46, R47, R68) -/

/-- R47, R52: of the MIs completed, all but the first three give a block position, and every position is a binned, a
below-gate or an excluded block; over-range blocks are binned ones, and absent MIs completed ones. -/
def MeterSegment.Balanced (g : MeterSegment) : Prop :=
  g.positions = g.mis - 3 ∧
  g.positions = g.histogram.toList.sum + g.belowGate + g.excluded ∧
  g.overRange ≤ g.histogram.toList.sum ∧
  g.absentMis ≤ g.mis

/-- R68: no count of a survey exceeds 2^32 − 1, and a survey holds a count of that value only when it is marked
saturated. -/
def Survey.Good (v : Survey) : Prop :=
  (∀ b : Fin 150, v.bins[b] ≤ 2 ^ 32 - 1 ∧ (v.bins[b] = 2 ^ 32 - 1 → v.saturated = true)) ∧
  v.belowGate ≤ 2 ^ 32 - 1 ∧ (v.belowGate = 2 ^ 32 - 1 → v.saturated = true)

/-- R46, R47, R68: a service's meter. -/
def MeterSvc.Good (x : MeterSvc) : Prop :=
  x.ring.length ≤ 30 ∧ (∀ g ∈ x.segments, g.Balanced) ∧ x.survey.Good

/-! ### The caption checker (R79, R82, R87, R88) -/

/-- R87, R88: covered MIs are audible ones, audible ones judged, judged ones combined; a gap run is made of audible MIs
that are not covered; a run is counted only while it lasts. -/
def CaptionSegment.Balanced (g : CaptionSegment) : Prop :=
  g.covered ≤ g.audible ∧ g.audible ≤ g.judged ∧ g.judged ≤ g.combined ∧ g.lost ≤ g.combined ∧
  g.gapRun ≤ g.longestGap ∧ g.covered + g.longestGap ≤ g.audible ∧
  (g.gapFirst.isSome ↔ 0 < g.gapRun) ∧ (g.gapCounted = true → 0 < g.gapRun)

/-- R76, R79, R82: an occupied row has 1 to 42 characters and, unless it is UNTIL_ERASED, a persistence of 1 to
600. -/
def RowText.Good (t : RowText) : Prop :=
  1 ≤ t.count ∧ t.count ≤ 42 ∧ ∀ n, t.persistence = some n → 1 ≤ n ∧ n ≤ 600

/-- R79 to R82, R87, R88: a service's checker. The timer of a stream that a run watches stands above 0 unless the
stream is LOST, and never above its timeout. -/
def CheckerSvc.Good (x : CheckerSvc) : Prop :=
  x.timer ≤ x.record.streamTimeout ∧
  (x.run ≠ .idle → x.isLost = false → 0 < x.timer) ∧
  (∀ r : Fin 16, ∀ t, x.rows[r] = some t → t.Good) ∧
  ∀ g ∈ x.segments, g.Balanced

/-! ### The compliance log (R113 to R115) -/

/-- R100, R113 to R115: the log holds the last 4096 records written, in consecutive sequence; the write in progress has
the next sequence, and `nextSeq` the one after; matters wait only behind a write; the collection mark is at most the
last sequence written. -/
def Compliance.Good (x : Compliance) : Prop :=
  x.log.length = min 4096 x.lastWritten ∧
  x.lastWritten ≤ 2 ^ 48 - 1 ∧
  (∀ k, ∀ h : k < x.log.length, (x.log[k]).seq + x.log.length = x.lastWritten + k + 1) ∧
  (x.writing = none → x.nextSeq = min (2 ^ 48 - 1) (x.lastWritten + 1) ∧ x.waiting = []) ∧
  (∀ r, x.writing = some r →
    r.seq = x.lastWritten + 1 ∧ r.seq ≤ 2 ^ 48 - 1 ∧ x.nextSeq = min (2 ^ 48 - 1) (r.seq + 1)) ∧
  x.mark ≤ x.lastWritten ∧
  x.loss = 0

/-! ### The recording store (R120, R121, R125) -/

/-- R120, R125: the settings of the store. -/
def Store.GoodSettings (x : Store) : Prop :=
  4096 ≤ x.slotCount ∧ x.slotCount ≤ 65536 ∧ 4096 ∣ x.slotCount ∧
  x.reserve2 ≤ x.reserve1 ∧ x.reserve1 ≤ x.reserve0 ∧ x.reserve0 ≤ x.slotCount ∧
  1024 ≤ x.threshold ∧ x.threshold ≤ x.slotCount

/-- The canonical form of the chunk table: rising slot numbers, all of them below the slot count (3.6). -/
def Store.GoodTable (x : Store) : Prop :=
  risingSlots x.slots = true ∧ ∀ e ∈ x.slots, e.1 < x.slotCount

/-- R145: the hold count of every slot that is not FREE is the number of live holds that cover it. -/
def State.GoodHoldCounts (s : State) : Prop :=
  ∀ e ∈ s.store.slots, e.2.holdCount = holdsOver s.holds e.2.svc e.2.start

/-- R121, R137, R139: a FILLING slot has no seal number; every other slot that is not FREE has one from 1 to the seal
counter; no two slots share one. -/
def Store.GoodSeals (x : Store) : Prop :=
  (∀ e ∈ x.slots, e.2.state = .filling ↔ e.2.sealNo = none) ∧
  (∀ e ∈ x.slots, ∀ k, e.2.sealNo = some k → 1 ≤ k ∧ k ≤ x.sealCount) ∧
  x.slots.Pairwise (fun a b => ∀ k, a.2.sealNo = some k → b.2.sealNo ≠ some k) ∧
  x.sealCount ≤ 2 ^ 32 - 1

/-- R122, R123: the FILLING slots are those of the current spans: a service that is not ACTIVE has no span; a span with
a slot has that slot FILLING for the service from the span's start; and every FILLING slot is that of its service's
span. -/
def State.GoodSpans (s : State) : Prop :=
  (∀ i : Svc, s.recorder[i].run ≠ .active → s.recorder[i].span = none) ∧
  (∀ i : Svc, ∀ p n, s.recorder[i].span = some p → p.slot = some n →
    ∃ x, slotAt n s.store.slots = some x ∧ x.state = .filling ∧ x.svc = i ∧ x.start = p.start) ∧
  (∀ n x, slotAt n s.store.slots = some x → x.state = .filling →
    ∃ p, s.recorder[x.svc].span = some p ∧ p.slot = some n)

/-- R158, R159: the takes in flight are those of the IN_TRANSFER slots, one for each, and at most eight. -/
def State.GoodTakes (s : State) : Prop :=
  s.archive.takes.length ≤ 8 ∧
  (s.archive.takes.map (·.slot)).Nodup ∧
  (∀ t ∈ s.archive.takes, ∃ x, slotAt t.slot s.store.slots = some x ∧ x.state = .inTransfer) ∧
  (∀ n x, slotAt n s.store.slots = some x → x.state = .inTransfer → ∃ t ∈ s.archive.takes, t.slot = n)

/-- The chunk table, the recorder and the archive queue agree. -/
def State.GoodStore (s : State) : Prop :=
  s.store.GoodTable ∧ s.store.GoodSeals ∧ s.GoodSpans ∧ s.GoodTakes

/-! ### The clip index (R153, R155) -/

/-- R153, R155: every list rises in chunk start; the pool has at most 2048 places and holds the GAP and LOST entries of
all lists, each once. -/
def ClipIndex.Good (x : ClipIndex) : Prop :=
  (∀ i : Svc, (x.lists[i]).Pairwise fun a b => a.start < b.start) ∧
  x.pool.length ≤ 2048 ∧ x.pool.Nodup ∧
  ∀ (i : Svc) (m : Mi),
    (i, m) ∈ x.pool ↔ (⟨m, .gap⟩ : ClipEntry) ∈ x.lists[i] ∨ (⟨m, .lost⟩ : ClipEntry) ∈ x.lists[i]

/-! ### The link ports (R170, R171, R173, R175, R178) -/

/-- R170, R171, R173, R178: at most four requests wait or are in service; a port in LINK_DOWN has no frame in reception and no
request but one that has been passed to its block; a request in service is at the head of the queue; a frame in reception
has at most 4102 bytes. -/
def Port.Good (x : Port) : Prop :=
  x.queue.length ≤ 4 ∧
  (x.link = .down → x.rx = none ∧ x.queue.length ≤ 1 ∧ (x.queue ≠ [] → x.serving.isSome)) ∧
  (x.serving.isSome → x.queue ≠ []) ∧
  ∀ l, x.rx = some l → l.length ≤ 4102

/-- R175: every port holds the role that the straps give it. -/
def State.GoodRoles (s : State) : Prop :=
  ∀ p : PortNo, s.ports[p].role = roleHeld s.strapped p

/-! ### The notice router and the counter bank (R185 to R188) -/

/-- R185, R186: at most 64 records wait and at most 64 pulses are owed, none of them in LEVEL mode; between pulses the
line is active exactly in LEVEL mode with a record waiting. -/
def PortNotices.Good (x : PortNotices) : Prop :=
  x.queue.length ≤ 64 ∧ x.owed ≤ 64 ∧ (x.mode = .level → x.owed = 0) ∧
  (x.line = true ↔ x.mode = .level ∧ x.queue ≠ []) ∧
  x.dropped ≤ 2 ^ 32 - 1 ∧ ∀ r ∈ x.queue, r.droppedBefore ≤ 2 ^ 32 - 1

/-- R187, R188: a counter saturates at 2^32 − 1; HALF is set only from 2^31 up and FULL only at 2^32 − 1; a flag is seen
only while it is set. -/
def CounterCell.Good (c : CounterCell) : Prop :=
  c.value ≤ 2 ^ 32 - 1 ∧
  (c.half = true → 2 ^ 31 ≤ c.value) ∧ (c.full = true → c.value = 2 ^ 32 - 1) ∧
  (c.seenHalf ≠ 0 → c.half = true) ∧ (c.seenFull ≠ 0 → c.full = true)

/-- R187, R188: the counter bank. -/
def Bank.Good (x : Bank) : Prop :=
  (∀ (i : Svc) (k : Fin 12), x.services[i][k].Good) ∧ ∀ k : Fin 5, x.part[k].Good

end Sys2Proof.Machine
end

