-- ==== Sys2Proof/Certificates/Slice0/Obligations.lean ====
section
/-!
DEFINITION. The statements for the provers, chapter by chapter. Where a command arrives from another block or from a
port, `s.arrive c` is the state with the command `c` under way no longer; a `send` puts messages under way, in order; a
`respond` answers the request (ResponseLeavesThePort says what that does); `s.acting i` says that service `i` is STARTING or
RUNNING. An equation `exec c s = .next t` gives the
whole of the next state: what `t` does not replace is as it was.
-/

open Sys2Proof Sys2Proof.Machine

/-! ### The queue of commands -/

/-- The command at the front of the queue runs, with the rest of the queue behind it. The model's choice (log entry 1): with no
command waiting, the oldest message under way arrives; with none under way the part idles. -/
def Obligations.StepTakesTheFrontCommandOrAMessage : Prop :=
  (∀ (c : Instr) (cs : List Instr) (s : State), s.pending = c :: cs → step s = exec c { s with pending := cs }) ∧
  ∀ s : State, s.pending = [] →
    (∀ c ms, s.inFlight = c :: ms → step s = exec c s) ∧ (s.inFlight = [] → step s = .next s)

/-- Every command of the table completes in every state, and none touches the queue of the commands that wait. -/
def Obligations.EveryCommandCompletes : Prop :=
  ∀ (c : Instr) (s : State), ∃ t, exec c s = .next t ∧ t.pending = s.pending

/-- R174, R173, R170, R178: what a response does. In LINK_UP it goes out under its tag; in LINK_DOWN nothing goes out. The response
of the request that its port has in service takes that request from the head of the queue, and the next one, if any, enters
service. The model's reading (log entry 17, DEDUCED): a response is matched to its request by the number of the pass under
which the port handed it on, so that one whose port has been through LINK_DOWN and back meanwhile is discarded, and a request
commanded directly, with no pass, leaves the queue as it is. -/
def Obligations.ResponseLeavesThePort : Prop :=
  ∀ (s : State) (p : PortNo) (tag : Byte) (st : Status) (a : Answer),
    let x := s.ports[p]
    let out : List Response := match x.link with
      | .up => x.out ++ [⟨tag, st, a⟩]
      | .down => x.out
    s.respond ⟨p, tag, none⟩ st a = { s with ports := s.ports.set p { x with out := out } } ∧
    ∀ k : Nat,
      (x.serving = some k →
        s.respond ⟨p, tag, some k⟩ st a =
          { s with
            ports := s.ports.set p { x with out := out, queue := x.queue.tail, serving := none }
            inFlight := s.inFlight ++ (if x.queue.length ≤ 1 then [] else [.requestService p]) }) ∧
      (x.serving ≠ some k → s.respond ⟨p, tag, some k⟩ st a = s)

/-! ### Chapter 1: station time and input lanes -/

/-- R1, R3, R4, R5: the three events of the station time unit, each in each reference state. A period edge adds one to station
time (if it is set), is sent to the audio lanes and the archive queue, and while station time is set goes as MI tick, with the
reference-held indication of the MI it ends, to the schedule unit, the meter, the checker and the recorder. The model's reading
(log entry 5, DEDUCED): a watch expiry in FREE_RUN and an oscillator edge in LOCKED do not arise and have no effect, and the
indication of the last MI ended is kept while station time is UNSET; and the model counts the period edges issued. -/
def Obligations.PeriodEdgesInEachReferenceState : Prop :=
  ∀ (s : State) (elapsed : Nat),
    let x := s.station
    let time : Option Mi := x.time.map fun m => (m + 1) % 2 ^ 40
    let held (kind : EdgeKind) : Bool := decide (x.kind = .reference ∧ kind = .reference)
    let messages (kind : EdgeKind) : List Instr :=
      ((List.finRange 16).map fun l => .lanePeriodEdge l ⟨time, held kind⟩)
        ++ (match time with
            | none => []
            | some t => [.scheduleMiTick t (held kind), .meterMiTick t, .checkerMiTick t, .recorderMiTick t])
        ++ [.archivePeriodEdge time]
    let edge (kind : EdgeKind) (micros : Nat) (ref : RefState) : State :=
      { s with
        edges := s.edges + 1
        station :=
          { time := time, ref := ref, instant := x.instant + micros, kind := kind
            held := match x.time with
              | none => x.held
              | some _ => held kind }
        inFlight := s.inFlight ++ messages kind }
    (x.ref = .locked →
      exec (.referenceEdge elapsed) s = .next (edge .reference elapsed .locked) ∧
      exec .referenceWatchExpiry s =
        .next ((edge .oscillator 110000 .freeRun).send [notice .referenceFailed none time .nothing]) ∧
      exec .oscillatorEdge s = .next s) ∧
    (x.ref = .freeRun →
      exec (.referenceEdge elapsed) s =
        .next ((edge .reference elapsed .locked).send [notice .referenceRestored none time .nothing]) ∧
      exec .referenceWatchExpiry s = .next s ∧
      exec .oscillatorEdge s = .next (edge .oscillator 100000 .freeRun))

/-- R2: SET TIME is taken when no service is RUNNING or STARTING, and refused with STATE otherwise. It changes nothing but
station time; the loaded number names the MI in progress, so the next period edge carries the number after it. -/
def Obligations.SetTimeLoadsStationTime : Prop :=
  ∀ (s : State) (rq : Req) (m : Mi), m < 2 ^ 40 →
    let u := s.arrive (.setTime rq m)
    ((∀ i : Svc, s.sched[i].state ≠ .starting ∧ s.sched[i].state ≠ .running) →
      exec (.setTime rq m) s =
        .next ({ u with station := { s.station with time := some m } }.respond rq .ok .nothing) ∧
      ∀ t v c, exec (.setTime rq m) s = .next t →
        ((∃ e, c = .referenceEdge e) ∨ (c = .referenceWatchExpiry ∧ s.station.ref = .locked) ∨
          (c = .oscillatorEdge ∧ s.station.ref = .freeRun)) →
        exec c t = .next v → v.station.time = some ((m + 1) % 2 ^ 40)) ∧
    ((∃ i : Svc, s.sched[i].state = .starting ∨ s.sched[i].state = .running) →
      exec (.setTime rq m) s = .next (u.respond rq .state .nothing))

/-- R7, R10, R11, R15: lock, sample frames, caption packets and proxy frames at the lanes. A sample frame that arrives with the lock
HELD is counted up to 65535; with the lock NOT_HELD it is discarded. While station time is set, frames and packets go, tagged
with the MI in progress, to every service bound to the lane that is STARTING or RUNNING. For a sample frame that is the MI in
progress at its lane: while a period edge is on its way to the lane (how far it has come is the model's: log entry 5), the MI
that this edge ends, in whose interval the frame falls. A proxy frame keeps its valid mark only when its block is 12,288 bytes
long and its position at most 24. -/
def Obligations.LaneInputGoesToBoundServices : Prop :=
  (∀ (s : State) (l : Lane) (f : SampleFrame),
     let x := s.lanes[l]
     let counted := s.setLane l { x with frames := min 65535 (x.frames + 1) }
     let edge : Option PeriodEdge := s.inFlight.findSome? fun c => match c with
       | .lanePeriodEdge k e => if k = l then some e else none
       | _ => none
     let here : Option Mi := match edge with
       | none => s.station.time
       | some e => e.tick.map fun t => (t + (2 ^ 40 - 1)) % 2 ^ 40
     exec (.lockGained l) s = .next (s.setLane l { x with lock := .held }) ∧
     exec (.lockLost l) s = .next (s.setLane l { x with lock := .notHeld, broken := true }) ∧
     (x.lock = .notHeld → exec (.laneSampleFrame l f) s = .next s) ∧
     (x.lock = .held → here = none → exec (.laneSampleFrame l f) s = .next counted) ∧
     ∀ m, x.lock = .held → here = some m →
       exec (.laneSampleFrame l f) s =
         .next (counted.send
           (((List.finRange 16).filter fun i : Svc => s.acting i && decide (s.map[i].audioLane = l)).flatMap fun i =>
             [.meterSampleFrame i m f, .recorderSampleFrame i m f]))) ∧
  ∀ (s : State) (l : Lane) (p : CaptionPacket) (f : ProxyFrame),
    let checked : ProxyFrame :=
      { f with valid := f.valid && decide (f.bytes.length = 12288) && decide (f.position ≤ 24) }
    (s.station.time = none →
      exec (.laneCaptionPacket l p) s = .next s ∧ exec (.laneProxyFrame l f) s = .next s) ∧
    ∀ m, s.station.time = some m →
      exec (.laneCaptionPacket l p) s =
        .next (s.send (((List.finRange 16).filter fun i : Svc => s.acting i && decide (s.map[i].captionLane = l)).flatMap
          fun i => [.checkerCaptionPacket i p, .recorderCaptionPacket i m p])) ∧
      exec (.laneProxyFrame l f) s =
        .next (s.send (((List.finRange 16).filter fun i : Svc => s.acting i && decide (s.map[i].proxyLane = some l)).map
          fun i => .recorderProxyFrame i m checked))

/-- R7, R8, R9: a period edge at an audio lane. The lane judges the interval just ended PRESENT when its lock was not broken and
it counted 4780 to 4820 frames, and begins the next. When the edge is the MI tick that ends MI m, the judgment goes to the meter
and the recorder of every bound service that acts; and for each of them that had an open segment during m, an absent MI is
counted, the input view takes the judgment, and a change of the view raises its notice. How the lane knows which services had
an open segment during m is the model's (log entry 5, DEDUCED): intervals are numbered by the period edges issued, the interval that
the edge ends is known by the edge's place among those on their way to the lane, and a run has an open segment in the intervals of
its span (ScheduleTickIsPerService says how a tick begins and ends one). An edge that was never sent is known by its number, as it
stands to the MI in progress. -/
def Obligations.LaneJudgesIntervalAtPeriodEdge : Prop :=
  ∀ (s : State) (l : Lane) (e : PeriodEdge),
    let x := s.lanes[l]
    let s₁ := (s.arrive (.lanePeriodEdge l e)).setLane l
      { lock := x.lock, broken := decide (x.lock = .notHeld), frames := 0 }
    let present : Bool := decide (x.broken = false ∧ 4780 ≤ x.frames ∧ x.frames ≤ 4820)
    let j : Judgment := if present then .present x.frames else .absent
    let view : InputView := if present then .present else .absent
    let bound := (List.finRange 16).filter fun i : Svc => s.acting i && decide (s.map[i].audioLane = l)
    let edges : List PeriodEdge := s.inFlight.filterMap fun c => match c with
      | .lanePeriodEdge k e => if k = l then some e else none
      | _ => none
    (e.tick = none → exec (.lanePeriodEdge l e) s = .next s₁) ∧
    ∀ t m, e.tick = some t → m = (t + (2 ^ 40 - 1)) % 2 ^ 40 →
      let ended : Int := match edges.idxOf? e with
        | some k => s.edges - edges.length + k
        | none => s.edges + (((m : Int) - s.station.time.getD 0 + 2 ^ 39) % 2 ^ 40 - 2 ^ 39)
      let noted := bound.filter fun i : Svc =>
        s.openSpans[i].any fun p => decide (p.first ≤ ended) && p.upTo.all fun b => decide (ended < b)
      ∃ u, exec (.lanePeriodEdge l e) s = .next u ∧
        u = { s₁ with views := u.views, inFlight := u.inFlight } ∧
        (∀ i : Svc, u.views[i] = if i ∈ noted then view else s.views[i]) ∧
        u.inFlight = s₁.inFlight
          ++ (bound.flatMap fun i => [.meterJudgment i m j, .recorderJudgment i m j])
          ++ noted.flatMap fun i =>
            (if present then [] else [increment .audioAbsentMi i])
              ++ (if s.views[i] = view then []
                else [notice (if present then .inputRestored else .inputAbsent) (some i) (some t) (.audioLane l.val)])

/-- R13, R14: CONFIGURE SERVICE writes the whole record of a DISABLED or READY service and leaves it READY; it is refused with STATE
for a STARTING or RUNNING one, and with BAD_ARGUMENT for a service number of 16 or more or fields that are refused (the last
before STATE: the model's choice, log entry 6). Each number outside its range is replaced by the nearest in range, members of a
set beyond its last are removed, and CLAMPED says whether anything was replaced. The marker DEFAULT loads the field's default and
NONE leaves the service without a proxy lane. A default profile of 8 or more, an empty channel list or one of more than 6 entries,
and DEFAULT for a field without a default are refused; so are, by the model's reading (log entry 16, DEDUCED), NONE for another
field, a marker byte above 02, and a yes-or-no byte above 01. -/
def Obligations.ConfigureServiceStoresAClampedRecord : Prop :=
  (∀ (s : State) (rq : Req) (n : Nat) (args : ServiceArgs),
     let c := Instr.configureService rq n args
     let u := s.arrive c
     (∀ (i : Svc) (r : Clamped ServiceRecord), n = i.val → readServiceArgs args = some r →
       (s.sched[i].state = .disabled ∨ s.sched[i].state = .ready →
         exec c s =
           .next ({ u with map := s.map.set i r.val, sched := s.sched.set i { s.sched[i] with state := .ready } }.respond rq
             (if r.changed then .clamped else .ok) .nothing)) ∧
       (s.sched[i].state = .starting ∨ s.sched[i].state = .running → exec c s = .next (u.respond rq .state .nothing))) ∧
     (16 ≤ n ∨ readServiceArgs args = none → exec c s = .next (u.respond rq .badArgument .nothing))) ∧
  (∀ (audio : Nat) (chans : List (Nat × Nat)) (cap stream rows timeout proxy normal reduced prio profile planned guardMi : Nat)
      (floor : Int) (record permit : Bool),
    let byte (b : Bool) : Nat := if b then 1 else 0
    let a : ServiceArgs :=
      ⟨.value audio, .value chans, .value cap, .value stream, .value rows, .value floor, .value timeout, .value proxy,
        .value normal, .value reduced, .value (byte record), .value prio, .value (byte permit), .value profile, .value planned,
        .value guardMi⟩
    (profile < 8 → 1 ≤ chans.length → chans.length ≤ 6 →
      ∃ r, readServiceArgs a = some r ∧
        r.val.audioLane.val = min 15 audio ∧
        r.val.channels.map (fun e => e.channel.val) = chans.map (fun e => min 7 e.1) ∧
        r.val.channels.map (fun e => e.weight) = chans.map (fun e => if e.2 ≤ 120 then .w100 else .w141) ∧
        r.val.captionLane.val = min 15 cap ∧ r.val.captionStream.val = min 7 stream ∧
        (∀ k : Nat, r.val.rowMask.getLsbD k = (decide (k < 16) && rows.testBit k)) ∧
        r.val.speechFloor = max (-700) (min 0 floor) ∧ r.val.streamTimeout = max 10 (min 600 timeout) ∧
        r.val.proxyLane.map (·.val) = some (min 15 proxy) ∧
        (∀ k : Nat, r.val.normalKeep.getLsbD k = (decide (k < 25) && normal.testBit k)) ∧
        (∀ k : Nat, r.val.reducedKeep.getLsbD k = (decide (k < 25) && reduced.testBit k)) ∧
        r.val.recording = record ∧ r.val.priority.val = min 3 prio ∧ r.val.overwrite = permit ∧
        r.val.profile.val = profile ∧ r.val.unschedPlanned = max 600 (min 36000 planned) ∧
        r.val.holdGuard = min 600 guardMi ∧
        (r.changed = true ↔
          15 < audio ∨ (∃ e ∈ chans, 7 < e.1 ∨ (e.2 ≠ 100 ∧ e.2 ≠ 141)) ∨ 15 < cap ∨ 7 < stream ∨ 2 ^ 16 ≤ rows ∨
          floor < -700 ∨ 0 < floor ∨ timeout < 10 ∨ 600 < timeout ∨ 15 < proxy ∨ 2 ^ 25 ≤ normal ∨ 2 ^ 25 ≤ reduced ∨
          3 < prio ∨ planned < 600 ∨ 36000 < planned ∨ 600 < guardMi)) ∧
    (8 ≤ profile ∨ chans.length = 0 ∨ 6 < chans.length → readServiceArgs a = none)) ∧
  ∀ a : ServiceArgs,
    let bad {α : Type} (x : Arg α) : Prop := x = .absent ∨ x = .badMarker
    let loads (f : Arg Nat → ServiceArgs) (n : Nat) : Prop := readServiceArgs (f .dflt) = readServiceArgs (f (.value n))
    loads (fun x => { a with rowMask := x }) (2 ^ 16 - 1) ∧
    readServiceArgs { a with speechFloor := .dflt } = readServiceArgs { a with speechFloor := .value (-500) } ∧
    loads (fun x => { a with streamTimeout := x }) 50 ∧
    loads (fun x => { a with normalKeep := x }) (2 ^ 25 - 1) ∧
    loads (fun x => { a with reducedKeep := x }) (2 ^ 0 + 2 ^ 5 + 2 ^ 10 + 2 ^ 15 + 2 ^ 20) ∧
    loads (fun x => { a with unschedPlanned := x }) 36000 ∧
    loads (fun x => { a with holdGuard := x }) 100 ∧
    readServiceArgs { a with proxyLane := .absent } =
      (readServiceArgs { a with proxyLane := .value 0 }).map (fun r => ⟨{ r.val with proxyLane := none }, r.changed⟩) ∧
    (a.audioLane = .dflt ∨ a.channels = .dflt ∨ a.captionLane = .dflt ∨ a.captionStream = .dflt ∨ a.proxyLane = .dflt ∨
      a.recording = .dflt ∨ a.priority = .dflt ∨ a.overwrite = .dflt ∨ a.profile = .dflt →
      readServiceArgs a = none) ∧
    (bad a.audioLane ∨ bad a.channels ∨ bad a.captionLane ∨ bad a.captionStream ∨ bad a.rowMask ∨ bad a.speechFloor ∨
      bad a.streamTimeout ∨ a.proxyLane = .badMarker ∨ bad a.normalKeep ∨ bad a.reducedKeep ∨ bad a.recording ∨
      bad a.priority ∨ bad a.overwrite ∨ bad a.profile ∨ bad a.unschedPlanned ∨ bad a.holdGuard →
      readServiceArgs a = none) ∧
    ∀ n, 2 ≤ n → a.recording = .value n ∨ a.overwrite = .value n → readServiceArgs a = none

/-! ### Chapter 2: services and the segment schedule -/

/-- R17, R18, R9, R99: START SERVICE of a READY service with station time set makes it STARTING with its staging queue kept, its
recording view RECORDING and its input view PRESENT, its reference loudness dropped, and run started sent; in any other state,
or with station time UNSET, it is refused. (The view's from-MI, which is the MI in progress, is the model's: log entry 7.) STOP
SERVICE acts by the state of the service. -/
def Obligations.ServicesStartAndStop : Prop :=
  (∀ (s : State) (rq : Req) (n : Nat),
     let c := Instr.startService rq n
     let u := s.arrive c
     (∀ (i : Svc) (m : Mi), n = i.val → s.sched[i].state = .ready → s.station.time = some m →
       exec c s =
         .next (({ u with
           sched := s.sched.set i
             { s.sched[i] with state := .starting, view := .recording, viewFrom := some m, runInst := none }
           views := s.views.set i .present
           compliance := { s.compliance with refs := s.compliance.refs.set i none } }.send
             [.meterRunStarted i, .checkerRunStarted i, .recorderRunStarted i]).respond rq .ok .nothing)) ∧
     (∀ i : Svc, n = i.val → s.sched[i].state ≠ .ready ∨ s.station.time = none →
       exec c s = .next (u.respond rq .state .nothing)) ∧
     (16 ≤ n → exec c s = .next (u.respond rq .badArgument .nothing))) ∧
  ∀ (s : State) (rq : Req) (n : Nat),
    let c := Instr.stopService rq n
    let u := s.arrive c
    (∀ i : Svc, n = i.val →
      let x := s.sched[i]
      (x.state = .disabled ∨ x.state = .ready → exec c s = .next (u.respond rq .state .nothing)) ∧
      (x.state = .starting →
        exec c s =
          .next (({ u with sched := s.sched.set i { x with state := .ready, staging := [] } }.send
            [.meterRunEnded i none, .checkerRunEnded i none, .recorderRunEnded i none]).respond rq .ok .nothing)) ∧
      (x.state = .running → x.stopPending = false →
        exec c s =
          .next ({ u with sched := s.sched.set i { x with stopPending := true, staging := [] } }.respond rq .ok .nothing)) ∧
      (x.state = .running → x.stopPending = true → exec c s = .next (u.respond rq .ok .nothing))) ∧
    (16 ≤ n → exec c s = .next (u.respond rq .badArgument .nothing))

/-- R22: STAGE. The checks in their order; the first that fails decides the response. When all pass, the descriptor joins the tail
of the queue with its planned duration brought into 1 to 864000, and the response carries the late indication. -/
def Obligations.StageChecksInOrder : Prop :=
  ∀ (s : State) (rq : Req) (n : Nat) (a : DescArgs),
    let c := Instr.stage rq n a
    let u := s.arrive c
    (16 ≤ n ∨ 4 ≤ a.cls ∨ 8 ≤ a.profile → exec c s = .next (u.respond rq .badArgument .nothing)) ∧
    ∀ (i : Svc) (cls : SegClass) (profile : Fin 8), n = i.val → a.cls < 4 → classOfCode a.cls = some cls →
      a.profile = profile.val →
      let x := s.sched[i]
      let d : Descriptor := ⟨a.id, a.start, cls, profile, max 1 (min 864000 a.planned)⟩
      let late : Bool := match s.station.time with
        | none => false
        | some m => decide (a.start ≤ m)
      exec c s = .next
        (if x.state = .disabled ∨ (x.state = .running ∧ x.stopPending = true) then u.respond rq .state .nothing
        else if 4 ≤ x.staging.length then u.respond rq .full .nothing
        else if ∃ e, x.staging.getLast? = some e ∧ a.start ≤ e.start then u.respond rq .order .nothing
        else if (∃ e ∈ x.staging, e.id = a.id) ∨ x.openId = some a.id then u.respond rq .conflict .nothing
        else { u with sched := s.sched.set i { x with staging := x.staging ++ [d] } }.respond rq
          (if 1 ≤ a.planned ∧ a.planned ≤ 864000 then .ok else .clamped) (.late late))

/-- R23: WITHDRAW. -/
def Obligations.WithdrawFindsTheDescriptor : Prop :=
  ∀ (s : State) (rq : Req) (n id : Nat),
    let c := Instr.withdraw rq n id
    let u := s.arrive c
    (16 ≤ n → exec c s = .next (u.respond rq .badArgument .nothing)) ∧
    ∀ i : Svc, n = i.val →
      let x := s.sched[i]
      (x.state = .disabled → exec c s = .next (u.respond rq .state .nothing)) ∧
      (x.state ≠ .disabled → (∃ d ∈ x.staging, d.id = id) →
        exec c s =
          .next ({ u with sched := s.sched.set i { x with staging := x.staging.filter fun d => decide (d.id ≠ id) } }.respond
            rq .ok .nothing)) ∧
      (x.state ≠ .disabled → (∀ d ∈ x.staging, d.id ≠ id) → x.openId = some id →
        exec c s = .next (u.respond rq .tooLate .nothing)) ∧
      (x.state ≠ .disabled → (∀ d ∈ x.staging, d.id ≠ id) → x.openId ≠ some id →
        exec c s = .next (u.respond rq .notFound .nothing))

/-- R25: CONFIGURE GROUP replaces the membership of a group whatever the states of the services; the memberships are reported in
the answer to READ SCHEDULE; power-on reset empties all four groups and warm reset keeps them. -/
def Obligations.ConfigureGroupReplacesMembership : Prop :=
  (∀ (s : State) (rq : Req) (n members : Nat),
    let c := Instr.configureGroup rq n members
    let u := s.arrive c
    (∀ g : Fin 4, n = g.val → members < 2 ^ 16 →
      exec c s = .next ({ u with groups := s.groups.set g (BitVec.ofNat 16 members) }.respond rq .ok .nothing)) ∧
    (4 ≤ n ∨ 2 ^ 16 ≤ members → exec c s = .next (u.respond rq .badArgument .nothing))) ∧
  (∀ (s t : State) (straps : Straps), exec (.powerOnReset straps) s = .next t → ∀ g : Fin 4, t.groups[g] = 0) ∧
  (∀ (s t : State) (rq : Req) (straps : Straps), exec (.warmReset rq straps) s = .next t → t.groups = s.groups) ∧
  ∀ (s : State) (rq : Req) (i : Svc), ∃ v : ScheduleView, v.groups = s.groups ∧
    exec (.readSchedule rq i.val) s = .next ((s.arrive (.readSchedule rq i.val)).respond rq .ok (.schedule v))

/-- R26: GROUP STAGE stages on every member that is not DISABLED or on none. A group number of 4 or more, a class other than
PROGRAMME, ADVERT, PROMOTION and JUNCTION, and a profile of 8 or more are refused with BAD_ARGUMENT; a group with no member that
is READY or RUNNING, with STATE and no member named (that this comes before the checks of a member that is STARTING is the model's
choice, log entry 27). Otherwise the first member that is not DISABLED, in ascending number, at which a check fails gives the
status and is named. -/
def Obligations.GroupStageIsAllOrNothing : Prop :=
  (∀ (s : State) (rq : Req) (n : Nat) (a : DescArgs),
    let c := Instr.groupStage rq n a
    4 ≤ n ∨ 4 ≤ a.cls ∨ 8 ≤ a.profile → exec c s = .next ((s.arrive c).respond rq .badArgument .nothing)) ∧
  ∀ (s : State) (rq : Req) (g : Fin 4) (a : DescArgs) (cls : SegClass) (profile : Fin 8),
    a.cls < 4 → classOfCode a.cls = some cls → a.profile = profile.val →
    let c := Instr.groupStage rq g.val a
    let u := s.arrive c
    let d : Descriptor := ⟨a.id, a.start, cls, profile, max 1 (min 864000 a.planned)⟩
    let late : Bool := match s.station.time with
      | none => false
      | some m => decide (a.start ≤ m)
    let member (i : Svc) : Prop := s.groups[g].getLsbD i.val = true ∧ s.sched[i].state ≠ .disabled
    let fails (i : Svc) : Option Status := s.sched[i].stageCheck a.id a.start
    let ready : Prop := ∃ i, member i ∧ (s.sched[i].state = .ready ∨ s.sched[i].state = .running)
    (¬ ready → exec c s = .next (u.respond rq .state .nothing)) ∧
    (∀ i st, ready → member i → fails i = some st → (∀ k : Svc, k < i → member k → fails k = none) →
      exec c s = .next (u.respond rq st (.member i))) ∧
    (ready → (∀ i, member i → fails i = none) →
      ∃ sched : Vector ServiceSched 16,
        (∀ i : Svc, member i → sched[i] = { s.sched[i] with staging := s.sched[i].staging ++ [d] }) ∧
        (∀ i : Svc, ¬ member i → sched[i] = s.sched[i]) ∧
        exec c s = .next ({ u with sched := sched }.respond rq
          (if 1 ≤ a.planned ∧ a.planned ≤ 864000 then .ok else .clamped) (.late late)))

/-- 2.4, R28, R32, R103: at an MI tick every service does its own work (`ServiceSched.tick`) on its own state and record and on the
profiles as they stand, whatever the other services decide. Its messages are sent, and the entries at the head of its closing set
that need no summary, SKIPPED ones among them, or have both, leave it and are taken by the compliance unit in order, each marked
RECORDING_INCOMPLETE when the view has been NOT_RECORDING since below its end. The messages already under way stay in front, and
each service's messages keep their order. The tick changes nothing but the schedule, the compliance unit's writing and the messages
under way. That the services come in ascending number is the model's choice (log entry 24). The
spans that R9 needs at the lanes are the model's record (log entry 5, DEDUCED): an opening tick begins one in the interval that the
tick begins, a stopping tick ends it below the interval that the tick ends. -/
def Obligations.ScheduleTickIsPerService : Prop :=
  ∀ (s : State) (t : Mi) (held : Bool),
    let u := s.arrive (.scheduleMiTick t held)
    let w (i : Svc) := s.sched[i].tick i s.map[i] s.compliance.profiles t held
    let ready (g : Segment) : Bool :=
      decide (g.cause = some .skipped) || (g.meterSummary.isSome && g.captionSummary.isSome)
    let done (i : Svc) : List Segment := ((w i).1.closing.takeWhile ready).map fun g : Segment =>
      if (w i).1.view = .notRecording ∧ g.cause ≠ some .skipped ∧ ∃ m ∈ (w i).1.viewFrom, ∀ e ∈ g.endMi, m < e then
        { g with incomplete := true }
      else g
    let ticks := s.inFlight.filter fun c => match c with
      | .scheduleMiTick _ _ => true
      | _ => false
    let begun : Int := match ticks.idxOf? (.scheduleMiTick t held) with
      | some k => s.edges - ticks.length + k + 1
      | none => s.edges + (((t : Int) - s.station.time.getD 0 + 2 ^ 39) % 2 ^ 40 - 2 ^ 39)
    let spans (i : Svc) : List OpenSpan :=
      if s.sched[i].state ≠ .running ∧ (w i).1.state = .running then s.openSpans[i] ++ [⟨begun, none⟩]
      else if s.sched[i].state = .running ∧ (w i).1.state ≠ .running then
        s.openSpans[i].map fun p => { p with upTo := some (p.upTo.getD (begun - 1)) }
      else s.openSpans[i]
    let after (v : State) (i : Svc) : State :=
      let y := { v.setSched i { (w i).1 with closing := (w i).1.closing.dropWhile ready } with
        openSpans := v.openSpans.set i (spans i) }.send (w i).2
      if done i = [] then y else y.complete ((done i).map (.completion i))
    ∃ v, exec (.scheduleMiTick t held) s = .next v ∧
      v = (List.finRange 16).foldl after u ∧
      (∀ i : Svc, v.sched[i] = { (w i).1 with closing := (w i).1.closing.dropWhile ready }) ∧
      (∀ i : Svc, v.openSpans[i] = spans i) ∧
      v = { s with
        sched := v.sched, openSpans := v.openSpans, compliance := v.compliance, inFlight := v.inFlight } ∧
      v.compliance.profiles = s.compliance.profiles ∧ v.compliance.mark = s.compliance.mark ∧
      ∃ sent : List Instr, v.inFlight = u.inFlight ++ sent ∧ ∀ i : Svc, (w i).2 <:+: sent

/-- R19, R27, R29, R30, R31: the tick of a RUNNING service with an open segment `g` for which it finds no due descriptor, or whose
stop is pending. The reference-held indication marks the open segment; then the stop, the overrun or the rollover closes it at
the tick, or it stays open. A STARTING service that finds no due descriptor opens an UNSCHEDULED segment. -/
def Obligations.TickStopsOverrunsOrRollsOver : Prop :=
  ∀ (x : ServiceSched) (i : Svc) (r : ServiceRecord) (profiles : Vector Profile 8) (t : Mi) (held : Bool) (g : Segment),
    let g₁ : Segment := { g with referenceLost := g.referenceLost || !held }
    let closed (cause : Cause) : Segment := { g₁ with endMi := some t, cause := some cause }
    let closes : List Instr :=
      [.meterSegmentClosed i ⟨g.inst, g.actualStart, t⟩, .checkerSegmentClosed i ⟨g.inst, g.actualStart, t⟩]
    let n : Nat := if 2 ^ 32 - 1 ≤ x.instCounter then 1 else x.instCounter + 1
    let fresh : Segment :=
      { inst := n, id := none, cls := .unscheduled, profile := r.profile, planned := r.unschedPlanned, stagedStart := t
        actualStart := t, endMi := none, cause := none, late := false, referenceLost := false, incomplete := false
        meterSummary := none, captionSummary := none }
    let opens : List Instr :=
      [.meterSegmentOpened i ⟨n, none, .unscheduled, r.profile, t⟩,
        .checkerSegmentOpened i ⟨n, none, .unscheduled, r.profile, t⟩, .onAirMessage i ⟨n, none, t⟩]
    let limit : Nat :=
      if g.cls = .unscheduled then g.actualStart + g.planned
      else g.actualStart + g.planned + profiles[g.profile].overrun
    (x.state = .running → x.openSeg = some g → x.stopPending = true →
      x.tick i r profiles t held =
        ({ x with
            state := .ready, stopPending := false, openSeg := none, closing := x.closing ++ [closed .stop] },
          closes ++ [.meterRunEnded i (some t), .checkerRunEnded i (some t), .recorderRunEnded i (some t)])) ∧
    (x.state = .running → x.openSeg = some g → x.stopPending = false → (∀ d ∈ x.staging, t < d.start) →
      (t < limit → x.tick i r profiles t held = ({ x with openSeg := some g₁ }, [])) ∧
      (limit ≤ t →
        x.tick i r profiles t held =
          ({ x with
              openSeg := some fresh, instCounter := n
              closing := x.closing ++ [closed (if g.cls = .unscheduled then .rollover else .overrun)] },
            closes ++ opens
              ++ (if g.cls = .unscheduled then []
                else [notice .scheduleOverrun (some i) (some t) (.segment g.id)])))) ∧
    (x.state = .starting → (∀ d ∈ x.staging, t < d.start) →
      x.tick i r profiles t held =
        ({ x with
            state := .running, openSeg := some fresh, instCounter := n, runInst := some n },
          opens))

/-- R20, R27, R28, R31: the tick of a STARTING service, or of a RUNNING one whose stop is not pending, that finds due descriptors
`gone ++ [d]`. The open segment, if any, closes with cause NEXT; every due descriptor but the last enters the closing set behind
it as a skipped segment of no MIs; the last opens. The instance counter counts each of them, in that order. -/
def Obligations.TickOpensTheLastDueDescriptor : Prop :=
  ∀ (x : ServiceSched) (i : Svc) (r : ServiceRecord) (profiles : Vector Profile 8) (t : Mi) (held : Bool)
      (gone : List Descriptor) (d : Descriptor),
    (x.staging.filter fun e => decide (e.start ≤ t)) = gone ++ [d] →
    let inst (k : Nat) : Nat := (fun n => if 2 ^ 32 - 1 ≤ n then 1 else n + 1)^[k + 1] x.instCounter
    let made (n : Nat) (e : Descriptor) : Segment :=
      { inst := n, id := some e.id, cls := e.cls, profile := e.profile, planned := e.planned, stagedStart := e.start
        actualStart := t, endMi := none, cause := none, late := decide (e.start ≠ t), referenceLost := false
        incomplete := false, meterSummary := none, captionSummary := none }
    let skipped : List Segment := gone.mapIdx fun k e =>
      { made (inst k) e with endMi := some t, cause := some .skipped, late := true }
    let n : Nat := inst gone.length
    let opens : List Instr :=
      [.meterSegmentOpened i ⟨n, some d.id, d.cls, d.profile, t⟩,
        .checkerSegmentOpened i ⟨n, some d.id, d.cls, d.profile, t⟩, .onAirMessage i ⟨n, some d.id, t⟩]
    let staging := x.staging.filter fun e => decide (t < e.start)
    (∀ g, x.state = .running → x.stopPending = false → x.openSeg = some g →
      x.tick i r profiles t held =
        ({ x with
            staging := staging, openSeg := some (made n d), instCounter := n
            closing := x.closing
              ++ { g with referenceLost := g.referenceLost || !held, endMi := some t, cause := some .next } :: skipped },
          [.meterSegmentClosed i ⟨g.inst, g.actualStart, t⟩, .checkerSegmentClosed i ⟨g.inst, g.actualStart, t⟩]
            ++ opens)) ∧
    (x.state = .starting →
      x.tick i r profiles t held =
        ({ x with
            state := .running, staging := staging, openSeg := some (made n d), instCounter := n
            closing := x.closing ++ skipped, runInst := some n },
          opens))

/-- R33, R34: "recording state changed". A message whose instance is not that of the latest run is discarded. NOT_RECORDING from
m marks the open segment and every closing one that ends above m; RECORDING from m', while the view is NOT_RECORDING from m₀,
marks every segment whose span overlaps [m₀, m'); skipped segments are never marked. That an empty period [m₀, m')
overlaps nothing is the model's reading (log entry 9, DEDUCED). -/
def Obligations.RecordingStateMarksSegments : Prop :=
  ∀ (s : State) (i : Svc) (state : Recording) (m : Mi) (inst : Nat),
    let c := Instr.recordingStateChanged i state m inst
    let u := s.arrive c
    let x := s.sched[i]
    let mark (p : Segment → Prop) [DecidablePred p] (g : Segment) : Segment :=
      if g.cause ≠ some .skipped ∧ p g then { g with incomplete := true } else g
    let endsAbove (a : Mi) (g : Segment) : Prop := ∀ e ∈ g.endMi, a < e
    (x.runInst ≠ some inst → exec c s = .next u) ∧
    (x.runInst = some inst → state = .notRecording →
      exec c s = .next { u with
        sched := s.sched.set i
          { x with
            view := .notRecording
            viewFrom := if x.view = .notRecording then x.viewFrom else some m
            openSeg := x.openSeg.map fun g => { g with incomplete := true }
            closing := x.closing.map (mark (endsAbove m)) } }) ∧
    (∀ m₀, x.runInst = some inst → state = .recording → x.view = .notRecording → x.viewFrom = some m₀ →
      exec c s = .next { u with
        sched := s.sched.set i
          { x with
            view := .recording
            viewFrom := some m
            openSeg := x.openSeg.map (mark fun g => m₀ < m ∧ g.actualStart < m ∧ endsAbove m₀ g)
            closing := x.closing.map (mark fun g => m₀ < m ∧ g.actualStart < m ∧ endsAbove m₀ g) } }) ∧
    (x.runInst = some inst → state = .recording → x.view = .recording → exec c s = .next u)

/-- R32, R34: a summary that arrives for a service is marked received in the entry of its instance that needs one and has none, and
is discarded if there is no such entry. Then the entries at the head of the closing set that need no summary or have both
complete, in order, and are taken by the compliance unit, each marked RECORDING_INCOMPLETE when the view has been NOT_RECORDING
since below its end; the others stay. -/
def Obligations.SummaryCompletesTheHeadOfTheClosingSet : Prop :=
  ∀ (s : State) (i : Svc) (inst : Nat) (c : Instr) (mark : Segment → Segment),
    (∃ m : MeterSummary, c = .meterSummaryArrival i inst m ∧ mark = fun g =>
      if g.inst = inst ∧ g.cause ≠ some .skipped ∧ g.meterSummary = none then { g with meterSummary := some m } else g) ∨
    (∃ m : CaptionSummary, c = .captionSummaryArrival i inst m ∧ mark = fun g =>
      if g.inst = inst ∧ g.cause ≠ some .skipped ∧ g.captionSummary = none then { g with captionSummary := some m } else g) →
    let x := s.sched[i]
    let ready (g : Segment) : Bool :=
      decide (g.cause = some .skipped) || (g.meterSummary.isSome && g.captionSummary.isSome)
    let closing := x.closing.map mark
    let done := (closing.takeWhile ready).map fun g =>
      if x.view = .notRecording ∧ g.cause ≠ some .skipped ∧ ∃ m ∈ x.viewFrom, ∀ e ∈ g.endMi, m < e then
        { g with incomplete := true }
      else g
    let u := (s.arrive c).setSched i { x with closing := closing.dropWhile ready }
    (done = [] → exec c s = .next u) ∧ (done ≠ [] → exec c s = .next (u.complete (done.map (.completion i))))

/-- R16, R21, R31, R32 and the table of 2.1.1 are kept by every step: staging queues keep their order and their bound, a service is
RUNNING exactly when it has an open segment, and no closing set is left with a head that could complete. -/
def Obligations.EveryStepKeepsTheSchedule : Prop :=
  (∀ s t : State, (∀ i : Svc, s.sched[i].GoodStaging) → step s = .next t → ∀ i : Svc, t.sched[i].GoodStaging) ∧
  (∀ s t : State, (∀ i : Svc, s.sched[i].GoodState) → step s = .next t → ∀ i : Svc, t.sched[i].GoodState) ∧
  ∀ s t : State, (∀ i : Svc, s.sched[i].GoodClosing) → step s = .next t → ∀ i : Svc, t.sched[i].GoodClosing

/-! ### Chapters 3 to 5: the loudness meter and the caption checker -/

/-- R39, R77, R122, R13, R43, R86, R138: run started and run ended at the meter, the checker and the recorder. In IDLE run started
begins to wait, with the state of the run cleared and the service record taken. Run ended is discarded in IDLE and ends the run at
once in WAITING. In MEASURING (ACTIVE at the recorder) it ends the run at its end e. The meter drains: the MIs from the first that
has not completed up to e complete in order, each with its judgment if that has arrived and absent otherwise, with summaries as
they come due (an MI of which nothing is held completes absent too, and the last tick stays from run to run: log entry 12,
DEDUCED). The checker flushes: it appends the presence of each MI from its last tick, or the run's start, up to e, and combines
what is due. The recorder cuts its span at e: what MIs from e on left in the chunk is dropped, an MI of the recorded part without
a judgment becomes absent, and the chunk is sealed CUT_SHORT; a recorded part of no MI gives the slot back; a gap ends as one; and
with the seal counter exhausted the chunk ends as a gap. The backlog is tested. A cut beyond the span's end ends the
chunk at the span's end (log entry 14, DEDUCED). After run ended the recorder keeps the enable and the run start of the run that
ended (log entry 30, DESIGN CHOICE), and it counts no MI tick from before run started (log entry 39, DESIGN CHOICE). Messages that
do not arise have no effect: run started in another state than IDLE, run ended
without an end in MEASURING or ACTIVE (log entry 10, DESIGN CHOICE). -/
def Obligations.RunsBeginAndEndInTheBlocks : Prop :=
  (∀ (s : State) (i : Svc),
     let m := s.meter[i]
     let k := s.checker[i]
     let r := s.recorder[i]
     let new := s.map[i]
     let um := s.arrive (.meterRunStarted i)
     let uk := s.arrive (.checkerRunStarted i)
     let ur := s.arrive (.recorderRunStarted i)
     (m.run = .idle →
       exec (.meterRunStarted i) s = .next { um with
         meter := s.meter.set i
           { m with
             run := .waiting, runStart := none, input := []
             filters := List.replicate new.channels.length ⟨⟨0, 0, 0, 0⟩, ⟨0, 0, 0, 0⟩⟩
             prevAbsent := false, ring := [], passed := [], lastBlock := .none, lastShort := none, record := new } }) ∧
     (m.run ≠ .idle → exec (.meterRunStarted i) s = .next um) ∧
     (k.run = .idle →
       exec (.checkerRunStarted i) s = .next { uk with
         checker := s.checker.set i
           { k with
             run := .waiting, runStart := none, lastTick := none, stream := .waiting, timer := new.streamTimeout
             rows := Vector.replicate 16 none, textSeen := false, record := new
             presence := k.presence.filter fun p => k.segments.any fun g => g.holds p.mi } }) ∧
     (k.run ≠ .idle → exec (.checkerRunStarted i) s = .next uk) ∧
     (r.run = .idle →
       exec (.recorderRunStarted i) s = .next { ur with
         recorder := s.recorder.set i
           { run := .waiting, runStart := none, enable := some new.recording, span := none, state := none, onAir := []
             held := [], runInst := none, lastTick := none, record := new } }) ∧
     (r.run ≠ .idle → exec (.recorderRunStarted i) s = .next ur)) ∧
  (∀ (s : State) (i : Svc) (e : Option Mi),
    let m := s.meter[i]
    let um := s.arrive (.meterRunEnded i e)
    (m.run = .idle ∨ (m.run = .measuring ∧ e = none) → exec (.meterRunEnded i e) s = .next um) ∧
    (m.run = .waiting →
      exec (.meterRunEnded i e) s = .next { um with meter := s.meter.set i { m with run := .idle, input := [] } }) ∧
    ∀ a b, m.run = .measuring → m.runStart = some a → e = some b →
      let first : Mi := match m.ring.getLast? with
        | none => a
        | some r => r.mi + 1
      let d := MeterSvc.drainFrom i (b - first) first m
      exec (.meterRunEnded i e) s =
        .next ({ um with meter := s.meter.set i { d.1 with run := .idle, input := [] } }.send d.2)) ∧
  (∀ (x : MeterSvc) (i : Svc) (m : Mi) (n : Nat),
    let h : HeldMi := (x.input.find? fun h => decide (h.mi = m)).getD
      ⟨m, [], none, match x.lastTick with
        | none => false
        | some t => decide (m < t)⟩
    let mine := x.segments.filter fun g => decide (g.start ≤ m) && g.endMi.all fun e => decide (m < e)
    MeterSvc.drainFrom i 0 m x = (x, []) ∧
    (mine = [] → MeterSvc.drainFrom i (n + 1) m x = MeterSvc.drainFrom i n (m + 1) x) ∧
    ∀ g, mine.getLast? = some g →
      let c := x.completeMi i h (h.judgment.getD .absent) g
      let y := c.1.sendSummaries i
      let r := MeterSvc.drainFrom i n (m + 1) y.1
      MeterSvc.drainFrom i (n + 1) m x = (r.1, c.2 ++ y.2 ++ r.2)) ∧
  (∀ (s : State) (i : Svc) (e : Option Mi),
    let k := s.checker[i]
    let uk := s.arrive (.checkerRunEnded i e)
    (k.run = .idle ∨ (k.run = .measuring ∧ e = none) → exec (.checkerRunEnded i e) s = .next uk) ∧
    (k.run = .waiting →
      exec (.checkerRunEnded i e) s = .next { uk with
        checker := s.checker.set i
          { k with run := .idle, presence := k.presence.filter fun p => k.segments.any fun g => g.holds p.mi } }) ∧
    ∀ a b, k.run = .measuring → k.runStart = some a → e = some b →
      let first := k.lastTick.getD a
      let present : Bool := decide (k.stream = .live) && (k.record.rowMask != 0) &&
        (k.textSeen || (List.finRange 16).any fun r : Fin 16 => k.record.rowMask.getLsbD r.val && k.rows[r].isSome)
      let lost : Bool := decide (k.stream = .lostFromLive ∨ k.stream = .lostFromWaiting)
      let c :=
        { k with
          presence := k.presence ++ (List.range' first (b - first)).map fun m => Presence.mk m present lost
          textSeen := k.textSeen && decide (b ≤ first) : CheckerSvc }.settle i s.compliance.profiles
      exec (.checkerRunEnded i e) s = .next ({ uk with
        checker := s.checker.set i
          { c.1 with run := .idle, presence := c.1.presence.filter fun p => c.1.segments.any fun g => g.holds p.mi } }.send
            c.2)) ∧
  (∀ (s : State) (i : Svc) (e : Option Mi),
    let r := s.recorder[i]
    let ur := s.arrive (.recorderRunEnded i e)
    (r.run = .idle ∨ (r.run = .active ∧ e = none) → exec (.recorderRunEnded i e) s = .next ur) ∧
    (r.run = .waiting →
      exec (.recorderRunEnded i e) s = .next { ur with
        recorder := s.recorder.set i { r with run := .idle, span := none, state := none, onAir := [], held := [] } }) ∧
    ∀ b, r.run = .active → e = some b →
      let w := (Work.mk r s.store []).cut ⟨i, s.holds, s.station.time⟩ b
      exec (.recorderRunEnded i e) s =
        .next ({ ur with recorder := s.recorder.set i w.x, store := w.store }.send w.out).testBacklog) ∧
  ∀ (w : Work) (a : Around) (e : Mi),
    let ended (store : Store) (out : List Instr) : Work :=
      { x := { w.x with run := .idle, span := none, state := none, onAir := [], held := [] }, store := store, out := out }
    (w.x.span = none → w.cut a e = ended w.store w.out) ∧
    ∀ p, w.x.span = some p →
      let last := min e (p.start + 20)
      (∀ b, p.slot = none → w.x.runStart = some b →
        w.cut a e = ended w.store (w.out ++
          (if max p.start b < last then [increment .chunksNotRecorded a.svc, .appendGap a.svc p.start] else []))) ∧
      ∀ n y, p.slot = some n → slotAt n w.store.slots = some y → y.start = p.start →
        let k := y.chunk
        let dropped : Store := { w.store with slots := dropSlot n w.store.slots }
        (last ≤ k.first → w.cut a e = ended dropped (w.out ++ [.removeEntry a.svc n p.start])) ∧
        (k.first < last → 2 ^ 32 - 1 ≤ w.store.sealCount →
          w.cut a e = ended dropped (w.out ++
            [.removeEntry a.svc n p.start, increment .chunksNotRecorded a.svc, .appendGap a.svc p.start]
            ++ (if w.x.state = some .notRecording then []
              else
                [.recordingStateChanged a.svc .notRecording k.first (w.x.runInst.getD 0),
                  notice .recordingGap (some a.svc) (some k.first) (.priority w.x.record.priority.val)]))) ∧
        (k.first < last → w.store.sealCount < 2 ^ 32 - 1 →
          let size := last - p.start
          let missed (o : Fin 20) : Bool :=
            decide (k.first ≤ p.start + o.val) && decide (p.start + o.val < last) && !p.judged.getLsbD o.val
          let frames := k.frames.filter fun f => decide (f.offset < size)
          let packets := k.packets.filter fun q => decide (q.offset < size)
          let started := w.x.onAir.filter fun q => decide (q.start ≤ k.first)
          let ids : List (Option Nat) :=
            (match started.getLast? with
              | none => none
              | some q => q.id) ::
              (w.x.onAir.filter fun q => decide (k.first < q.start ∧ q.start < last)).map (·.id)
          let misses : Prop := ∃ j pos, j < 2 ∧ pos < 25 ∧ k.first < p.start + 10 * (j + 1) ∧ p.start + 10 * j < last ∧
            k.keep.getLsbD pos = true ∧ ∀ f ∈ frames, ¬ ((if f.offset < 10 then 0 else 1) = j ∧ f.position = pos)
          ∃ (absent : BitVec 20) (fill : Bool),
            (∀ o : Fin 20, absent.getLsbD o.val = ((decide (o.val < size) && k.absent.getLsbD o.val) || missed o)) ∧
            (fill = true ↔ w.x.record.proxyLane.isSome ∧ misses) ∧
            w.cut a e = ended
              { w.store with
                sealCount := w.store.sealCount + 1
                slots := putSlot n
                  { y with
                    state := .sealed, sealNo := some (w.store.sealCount + 1)
                    length := 4096 + 384000 + 12288 * frames.length + 48 * packets.length, cutShort := true
                    fillFrames := fill
                    chunk :=
                      { k with
                        audio := Vector.ofFn fun o : Fin 20 =>
                          if o.val < size ∧ missed o = false then k.audio[o] else []
                        frames := frames, packets := packets
                        overflow := Vector.ofFn fun o : Fin 20 => if o.val < size then k.overflow[o] else 0
                        absent := absent, endMi := last, segments := ids.take 8, more := decide (8 < ids.length) } }
                  w.store.slots }
              (w.out ++ [increment .chunksSealed a.svc]))

/-- R39, R41, R77, R84, R90: segment opened and segment closed at the meter and at the checker, by run state. The segment list grows by an
entry whose accumulators are at zero, or an entry is given its end; then what has become due comes about
(ArrivalsLeaveNothingDue). -/
def Obligations.SegmentMessagesAreTaken : Prop :=
  ∀ (s : State) (i : Svc) (o : SegOpened) (e : SegClosed),
    let m := s.meter[i]
    let k := s.checker[i]
    let p := s.compliance.profiles
    let um := s.arrive (.meterSegmentOpened i o)
    let uk := s.arrive (.checkerSegmentOpened i o)
    let vm := s.arrive (.meterSegmentClosed i e)
    let vk := s.arrive (.checkerSegmentClosed i e)
    let newM : MeterSegment :=
      { inst := o.inst, cls := o.cls, start := o.start, endMi := none, mis := 0, absentMis := 0, positions := 0
        histogram := Vector.replicate 150 0, belowGate := 0, excluded := 0, overRange := 0, maxMomentary := none
        maxShortTerm := none, maxSample := 0 }
    let newK : CaptionSegment :=
      { inst := o.inst, id := o.id, cls := o.cls, profile := o.profile, start := o.start, endMi := none, combined := 0
        judged := 0, audible := 0, covered := 0, lost := 0, gapRun := 0, gapFirst := none, gapCounted := false
        gapCount := 0, longestGap := 0 }
    (m.run = .idle → exec (.meterSegmentOpened i o) s = .next (um.meterDoes i (m.settle i))) ∧
    (m.run = .waiting →
      exec (.meterSegmentOpened i o) s = .next (um.meterDoes i
        ({ m with
          run := .measuring, runStart := some o.start, segments := m.segments ++ [newM]
          input := m.input.filter fun h => decide (o.start ≤ h.mi) }.settle i))) ∧
    (m.run = .measuring →
      exec (.meterSegmentOpened i o) s =
        .next (um.meterDoes i ({ m with segments := m.segments ++ [newM] }.settle i))) ∧
    (m.run ≠ .measuring → exec (.meterSegmentClosed i e) s = .next (vm.meterDoes i (m.settle i))) ∧
    (m.run = .measuring →
      exec (.meterSegmentClosed i e) s = .next (vm.meterDoes i
        ({ m with
          segments := m.segments.map fun g : MeterSegment =>
            if g.inst = e.inst then { g with endMi := some e.endMi } else g }.settle i))) ∧
    (k.run = .idle → exec (.checkerSegmentOpened i o) s = .next (uk.checkerDoes i (k.settle i p))) ∧
    (k.run = .waiting →
      exec (.checkerSegmentOpened i o) s = .next (uk.checkerDoes i
        ({ k with
          run := .measuring, runStart := some o.start, segments := k.segments ++ [newK]
          presence := k.presence.filter fun q => decide (o.start ≤ q.mi) || k.segments.any fun g => g.holds q.mi
          held := k.held.filter fun r =>
            !(decide (1 ≤ (o.inst + (2 ^ 32 - 1) - r.inst) % (2 ^ 32 - 1))
              && decide ((o.inst + (2 ^ 32 - 1) - r.inst) % (2 ^ 32 - 1) ≤ 2 ^ 31)) }.settle i p))) ∧
    (k.run = .measuring →
      exec (.checkerSegmentOpened i o) s =
        .next (uk.checkerDoes i ({ k with segments := k.segments ++ [newK] }.settle i p))) ∧
    exec (.checkerSegmentClosed i e) s = .next (vk.checkerDoes i
      ({ k with
        segments := k.segments.map fun g : CaptionSegment =>
          if g.inst = e.inst then { g with endMi := some e.endMi } else g }.settle i p))

/-- R42, R54, R87, R91, R123: after an arrival, what is due comes about, one thing at a time. First the summaries whose condition
holds are sent. Then, as long as an MI is due at the meter it completes with its summaries; as long as a result is due at the
checker it is combined with its presence record, with summaries; and as long as the boundary of a span has been passed at the
recorder, the span ends, the backlog is tested, the next span opens and the held input is sorted again. At the end nothing is left
that is due: no MI at the meter whose judgment, end tick and segment are known and no summary (what is due at the meter:
MeterCompletesAndSummarises); no result at the checker whose presence record and entry are known (ResultsAreCombinedIntoSegments)
and no summary; and no boundary at the recorder that has been passed. The condition of a meter summary: an end, and every MI from
the start to the end minus one has completed; the MIs of the run that have completed are those from its start to the last
completed, but for the spans in `passed` (the model's record, log entry 12). An MI that completed before the segment messages of
its tick were taken counts for the entry it lies in, though it was attributed to the one before (log entry 37, DESIGN CHOICE). -/
def Obligations.ArrivalsLeaveNothingDue : Prop :=
  let done (x : MeterSvc) (g : MeterSegment) : Prop :=
    ∃ e, g.endMi = some e ∧ g.start < e ∧ ∀ m, g.start ≤ m → m < e →
      (∃ a, x.runStart = some a ∧ a ≤ m) ∧ (∃ b, x.ring.getLast? = some b ∧ m ≤ b.mi) ∧
        ∀ p ∈ x.passed, ¬ (p.first ≤ m ∧ m < p.behind)
  (∀ (x : MeterSvc) (i : Svc), ∃ d : MeterSegment → Bool, (∀ g, d g = true ↔ done x g) ∧
    x.sendSummaries i =
      ({ x with segments := x.segments.filter fun g => !d g },
        (x.segments.filter d).map fun g : MeterSegment => .meterSummaryArrival i g.inst g.summary)) ∧
  (∀ (x : MeterSvc) (i : Svc),
    let a := x.sendSummaries i
    (a.1.due = none → x.settle i = a) ∧
    (∀ h j g, a.1.due = some (h, j, g) →
      let c := a.1.completeMi i h j g
      let y := c.1.sendSummaries i
      let r := y.1.settle i
      x.settle i = (r.1, a.2 ++ c.2 ++ y.2 ++ r.2)) ∧
    (x.settle i).1.due = none ∧ ∀ g ∈ (x.settle i).1.segments, ¬ done (x.settle i).1 g) ∧
  (∀ (x : CheckerSvc) (i : Svc) (p : Vector Profile 8),
    let done (g : CaptionSegment) : Bool := decide (g.endMi = some (g.start + g.combined))
    let a := x.sendSummaries i
    a = ({ x with segments := x.segments.filter fun g => !done g },
      (x.segments.filter done).map fun g : CaptionSegment => .captionSummaryArrival i g.inst g.summary) ∧
    (a.1.due = none → x.settle i p = a) ∧
    (∀ r w g, a.1.due = some (r, w, g) →
      let c := g.combine i p[g.profile] r w
      let y :=
        { a.1 with
          held := a.1.held.erase r, presence := a.1.presence.erase w
          segments := a.1.segments.map fun e => if e.inst = g.inst then c.1 else e : CheckerSvc }.sendSummaries i
      let z := y.1.settle i p
      x.settle i p = (z.1, a.2 ++ c.2 ++ y.2 ++ z.2)) ∧
    (x.settle i p).1.due = none ∧ ∀ g ∈ (x.settle i p).1.segments, done g = false) ∧
  ∀ (w : Work) (a : Around),
    (w.passed = none → w.settle a = w) ∧
    (∀ p, w.passed = some p →
      let b := p.start + 20
      w.settle a = ((((w.endSpan a p).testBacklog a).openSpan a b b).sortHeld).settle a) ∧
    (w.settle a).passed = none

/-- R40: a sample frame and a judgment at the meter. Data of a service in IDLE, of an MI below the run start or of one already
completed is discarded; otherwise it is held under its MI, which joins the ascending input list where it is not in it yet, with
its end-tick mark set when the tick that ends it has been taken; the data of other MIs is as it was. -/
def Obligations.MeterHoldsTheDataOfAnMi : Prop :=
  ∀ (s : State) (i : Svc) (m : Mi) (f : SampleFrame) (j : Judgment),
    let x := s.meter[i]
    let uf := s.arrive (.meterSampleFrame i m f)
    let uj := s.arrive (.meterJudgment i m j)
    let old : HeldMi := (x.input.find? fun h => decide (h.mi = m)).getD
      ⟨m, [], none, match x.lastTick with
        | none => false
        | some t => decide (m < t)⟩
    (x.run = .idle ∨ (∃ a, x.runStart = some a ∧ m < a) ∨ (∃ b, x.ring.getLast? = some b ∧ m ≤ b.mi) →
      exec (.meterSampleFrame i m f) s = .next uf ∧
      exec (.meterJudgment i m j) s = .next (uj.meterDoes i (x.settle i))) ∧
    (x.run ≠ .idle → (∀ a, x.runStart = some a → a ≤ m) → (∀ b, x.ring.getLast? = some b → b.mi < m) →
      x.input.Pairwise (fun a b => a.mi < b.mi) →
      ∃ input₁ input₂ : List HeldMi,
        exec (.meterSampleFrame i m f) s = .next { uf with meter := s.meter.set i { x with input := input₁ } } ∧
        exec (.meterJudgment i m j) s = .next (uj.meterDoes i ({ x with input := input₂ }.settle i)) ∧
        (∀ h, h ∈ input₁ ↔ (h ∈ x.input ∧ h.mi ≠ m) ∨
          h = { old with frames := old.frames ++ [x.record.channels.map fun e => f.getD e.channel.val 0] }) ∧
        (∀ h, h ∈ input₂ ↔ (h ∈ x.input ∧ h.mi ≠ m) ∨ h = { old with judgment := some j }) ∧
        input₁.Pairwise (fun a b => a.mi < b.mi) ∧ input₂.Pairwise (fun a b => a.mi < b.mi))

/-- R40, R42, R81 to R83: an MI tick at the meter and at the checker is taken for every service on its own. A meter that runs records it,
sets the end-tick mark of every held MI below it, and completes what is due. A checker that runs evaluates the MI just ended,
which is present when the stream is LIVE and a counted row is occupied or a text was seen; combines what that makes due; clears the
text-seen mark; counts every numbered persistence down, clearing the rows that reach 0; and counts the timer of a stream that is
not LOST down, which at 0 expires. -/
def Obligations.MiTicksArePerService : Prop :=
  (∀ (s : State) (t : Mi),
     let ticked (i : Svc) : MeterSvc :=
       let x := s.meter[i]
       if x.run = .idle then x
       else
         { x with
           lastTick := some t
           input := x.input.map fun h => { h with endTick := h.endTick || decide (h.mi < t) } }
     exec (.meterMiTick t) s = .next { s with
       meter := Vector.ofFn fun i : Svc => ((ticked i).settle i).1
       inFlight := s.inFlight.erase (.meterMiTick t) ++ (List.finRange 16).flatMap fun i : Svc => ((ticked i).settle i).2 }) ∧
  ∀ (s : State) (t : Mi),
    let p := s.compliance.profiles
    let present (x : CheckerSvc) : Bool := decide (x.stream = .live) && (x.record.rowMask != 0) &&
      (x.textSeen || (List.finRange 16).any fun r : Fin 16 => x.record.rowMask.getLsbD r.val && x.rows[r].isSome)
    let lost (x : CheckerSvc) : Bool := decide (x.stream = .lostFromLive ∨ x.stream = .lostFromWaiting)
    let counted (o : Option RowText) : Option RowText := match o with
      | none => none
      | some ⟨none, n⟩ => some ⟨none, n⟩
      | some ⟨some k, n⟩ => if k ≤ 1 then none else some ⟨some (k - 1), n⟩
    let ticked (i : Svc) : CheckerSvc × List Instr :=
      let x := s.checker[i]
      if x.run = .idle then (x, [])
      else
        let c := { x with presence := x.presence ++ [Presence.mk ((t + (2 ^ 40 - 1)) % 2 ^ 40) (present x) (lost x)] : CheckerSvc }.settle i p
        let y : CheckerSvc :=
          { c.1 with
            textSeen := false, lastTick := some t, rows := Vector.ofFn fun r : Fin 16 => counted c.1.rows[r]
            timer := if lost c.1 then c.1.timer else c.1.timer - 1 }
        ((y.expireStream i).1, c.2 ++ (y.expireStream i).2)
    exec (.checkerMiTick t) s = .next { s with
      checker := Vector.ofFn fun i : Svc => (ticked i).1
      inFlight := s.inFlight.erase (.checkerMiTick t) ++ (List.finRange 16).flatMap fun i : Svc => (ticked i).2 }

/-- R41, R42, R54: at a meter that is MEASURING the MI that is due is the lowest of the input list, once its judgment has arrived, its
end-tick mark is set and it is attributed to a segment: the last entry of the segment list with a start at or below it and no end
or one above it. It completes, and the summaries whose condition then holds are sent; where none is due the completion has no
effect. Every entry whose condition holds (an end, and every MI from its start to the end minus one completed: how the model knows
them, log entry 12; an MI attributed to the entry before, log entry 37, DESIGN CHOICE) leaves the segment list, in order, with a
summary of its accumulators, the gated integration of its histogram and its peak code. That the two commands METER_MI_COMPLETION and METER_SUMMARY do the step where it is due, and
nothing where an arrival has done it already, is the model's reading of these rows (log entry 4, DEDUCED). -/
def Obligations.MeterCompletesAndSummarises : Prop :=
  ∀ (s : State) (i : Svc),
    let x := s.meter[i]
    let done (g : MeterSegment) : Prop :=
      ∃ e, g.endMi = some e ∧ g.start < e ∧ ∀ m, g.start ≤ m → m < e →
        (∃ a, x.runStart = some a ∧ a ≤ m) ∧ (∃ b, x.ring.getLast? = some b ∧ m ≤ b.mi) ∧
          ∀ p ∈ x.passed, ¬ (p.first ≤ m ∧ m < p.behind)
    (∀ h j g, x.due = some (h, j, g) ↔
      x.run = .measuring ∧ x.input.head? = some h ∧ h.judgment = some j ∧ h.endTick = true ∧
        (x.segments.filter fun k => decide (k.start ≤ h.mi) && k.endMi.all fun e => decide (h.mi < e)).getLast? = some g) ∧
    (x.due = none → exec (.meterMiCompletion i) s = .next s) ∧
    (∀ h j g, x.due = some (h, j, g) →
      let c := x.completeMi i h j g
      exec (.meterMiCompletion i) s =
        .next (s.meterDoes i ((c.1.sendSummaries i).1, c.2 ++ (c.1.sendSummaries i).2))) ∧
    ((∀ g ∈ x.segments, ¬ done g) → exec (.meterSummary i) s = .next s) ∧
    ∃ d : MeterSegment → Bool, (∀ g, d g = true ↔ done g) ∧
      exec (.meterSummary i) s =
        .next ({ s with meter := s.meter.set i { x with segments := x.segments.filter fun g => !d g } }.send
          ((x.segments.filter d).map fun g : MeterSegment => .meterSummaryArrival i g.inst
            { mis := g.mis, absentMis := g.absentMis, positions := g.positions, binned := g.histogram.toList.sum
              belowGate := g.belowGate, excluded := g.excluded, overRange := g.overRange, histogram := g.histogram
              integrated := gatedIntegration g.histogram.toList, maxMomentary := g.maxMomentary
              maxShortTerm := g.maxShortTerm, peak := peakCode g.maxSample }))

/-- R44 to R53, R66 to R68: what the completion of an MI, the d-th of segment `g`, does. Its sub-block joins the ring, which the first
MI of a segment empties and which keeps the last 30: with no energy for an absent MI, and for a present one of N frames with the
sum over the channel list of weight times the sum of the squares of the signal filtered by the shelf and the high-pass, divided
by N. The filters start from zero after an absent MI, which leaves them. The first three MIs have no block position. A
position that covers an absent MI is excluded; one whose mean energy has no code, or a code below −700, is below gate; any other
enters bin floor((c + 700)/5), or bin 149 from code 50 up, where it is over-range too, and is audible from the speech floor up. A
binned or below-gate block is offered to the survey, which counts it when it is ACTIVE and has the class. The short-term code is
that of the mean of 30 energies, none absent, and at least −999. A code is the formula's value rounded, where within 0.0005 LU of
a half-tenth boundary either neighbour may be reported (which, is a free value: log entry 2). The peak takes the largest
magnitude of the samples. -/
def Obligations.CompletedMiJoinsRingAndGivesOneBlock : Prop :=
  (∀ (x : MeterSvc) (i : Svc) (h : HeldMi) (j : Judgment) (g : MeterSegment),
     let c := x.completeMi i h j g
     let old := if g.mis = 0 then [] else x.ring
     let next : Mi := match x.ring.getLast? with
       | none => x.runStart.getD 0
       | some b => b.mi + 1
     let filters := if x.prevAbsent then x.record.channels.map fun _ => ⟨⟨0, 0, 0, 0⟩, ⟨0, 0, 0, 0⟩⟩ else x.filters
     let signal (k : Nat) : List Int := h.frames.map fun f => f.getD k 0
     let run (k : Nat) : EntryFilter × Rat := (filters.getD k ⟨⟨0, 0, 0, 0⟩, ⟨0, 0, 0, 0⟩⟩).run (signal k)
     let weighted : List Rat := x.record.channels.mapIdx fun k e => e.weight.value * (run k).2
     c.1.passed = x.passed ++ (if next < h.mi then [⟨next, h.mi⟩] else []) ∧
     (x.ring.length ≤ 30 →
     c.1.ring.length ≤ 30 ∧ (∃ n, c.1.ring.dropLast = old.drop n ∧ (old.length < 30 → n = 0) ∧ (old.length = 30 → n = 1)) ∧
     (j = .absent →
       c.1.ring.getLast? = some ⟨h.mi, none⟩ ∧ c.1.filters = x.filters ∧ c.1.prevAbsent = true) ∧
     ∀ n, j = .present n →
       c.1.ring.getLast? = some ⟨h.mi, some (weighted.sum / n)⟩ ∧ c.1.prevAbsent = false ∧
       c.1.filters = x.record.channels.mapIdx fun k _ => (run k).1)) ∧
  (Weight.w100.value = 1 ∧ Weight.w141.value = 141 / 100 ∧
   (∀ f : EntryFilter, f.run [] = (f, 0)) ∧
   ∀ (f : EntryFilter) (sample : Int) (rest : List Int),
     let x : Rat := sample / 2 ^ 23
     let a := f.shelf
     let b := f.highPass
     let u : Rat := 153512486 / 100000000 * x - 269169619 / 100000000 * a.x1 + 119839281 / 100000000 * a.x2
       + 169065929 / 100000000 * a.y1 - 73248077 / 100000000 * a.y2
     let y : Rat := u - 2 * b.x1 + b.x2 + 199004745 / 100000000 * b.y1 - 99007225 / 100000000 * b.y2
     let r := (EntryFilter.mk ⟨x, a.x1, u, a.y1⟩ ⟨u, b.x1, y, b.y1⟩).run rest
     f.run (sample :: rest) = (r.1, y ^ 2 + r.2)) ∧
  (let rounds (v : ℝ) (c : Int) : Prop := c = ⌊v + 1 / 2 + 1 / 200⌋ ∨ c = ⌊v + 1 / 2 - 1 / 200⌋
   (∀ e : Rat, e ≤ 0 → loudnessCode e = none) ∧
   (∀ e : Rat, 0 < e → ∃ c, loudnessCode e = some c ∧ rounds (10 * (-(691 / 1000) + 10 * Real.logb 10 e)) c) ∧
   peakCode 0 = none ∧
   (∀ m : Nat, m ≠ 0 → ∃ c, peakCode m = some c ∧ rounds (10 * (20 * Real.logb 10 (m / 2 ^ 23))) c) ∧
   ∀ frames : List (List Int),
     (∀ f ∈ frames, ∀ v ∈ f, v.natAbs ≤ largestMagnitude frames) ∧
     (largestMagnitude frames = 0 ∨ ∃ f ∈ frames, ∃ v ∈ f, v.natAbs = largestMagnitude frames)) ∧
  ∀ (x : MeterSvc) (i : Svc) (h : HeldMi) (j : Judgment) (g : MeterSegment),
    let c := x.completeMi i h j g
    let d := g.mis + 1
    let last4 := c.1.ring.drop (c.1.ring.length - 4)
    let mean (l : List SubBlock) : Rat := (l.map fun b => b.energy.getD 0).sum / l.length
    let base : MeterSegment :=
      { g with
        mis := d, absentMis := if j = .absent then g.absentMis + 1 else g.absentMis
        maxShortTerm := match c.1.lastShort with
          | none => g.maxShortTerm
          | some k => some (max (g.maxShortTerm.getD k) k)
        maxSample := if j = .absent then g.maxSample else max g.maxSample (largestMagnitude h.frames) }
    let v := x.survey
    let classNo : Nat := match g.cls with
      | .programme => 0
      | .advert => 1
      | .promotion => 2
      | .junction => 3
      | .unscheduled => 4
    let counts : Prop := v.state = .active ∧ v.classes.getLsbD classNo = true
    let more (n : Nat) : Nat := min (2 ^ 32 - 1) (n + 1)
    let result (judged audible : Bool) : List Instr := [.miResult i ⟨g.inst, h.mi, judged, audible⟩]
    let becomes (b : BlockResult) (g' : MeterSegment) (v' : Survey) (msgs : List Instr) : Prop :=
      c.1.lastBlock = b ∧ c.2 = msgs ∧ c.1.survey = v' ∧
      c.1.segments = x.segments.map fun e => if e.inst = g.inst then g' else e
    c.1 =
      { c.1 with
        run := x.run, runStart := x.runStart, lastTick := x.lastTick, record := x.record
        input := x.input.filter fun e => decide (e.mi ≠ h.mi) } ∧
    (d < 30 ∨ (∃ b ∈ c.1.ring, b.energy = none) → c.1.lastShort = none) ∧
    (30 ≤ d → (∀ b ∈ c.1.ring, b.energy ≠ none) → c.1.lastShort = (loudnessCode (mean c.1.ring)).map (max (-999))) ∧
    (d ≤ 3 → becomes .none base v (result false false)) ∧
    (4 ≤ d → (∃ b ∈ last4, b.energy = none) →
      becomes .absentExcluded { base with positions := g.positions + 1, excluded := g.excluded + 1 } v
        (increment .blocksAbsent i :: result false false)) ∧
    (4 ≤ d → (∀ b ∈ last4, b.energy ≠ none) → (∀ k, loudnessCode (mean last4) = some k → k < -700) →
      ∃ v' : Survey,
        (counts → v' = { v with
          belowGate := more v.belowGate, saturated := v.saturated || decide (more v.belowGate = 2 ^ 32 - 1) }) ∧
        (¬ counts → v' = v) ∧
        becomes .belowGate { base with positions := g.positions + 1, belowGate := g.belowGate + 1 } v'
          (increment .blocksBelowGate i :: result true false)) ∧
    ∀ k, 4 ≤ d → (∀ b ∈ last4, b.energy ≠ none) → loudnessCode (mean last4) = some k → -700 ≤ k →
      ∃ (b : Fin 150) (v' : Survey), (b.val : Int) = min 149 ((k + 700) / 5) ∧
        (counts → v' = { v with
          bins := v.bins.set b (more v.bins[b]), saturated := v.saturated || decide (more v.bins[b] = 2 ^ 32 - 1) }) ∧
        (¬ counts → v' = v) ∧
        becomes (.code k)
          { base with
            positions := g.positions + 1, histogram := g.histogram.set b (g.histogram[b] + 1)
            overRange := if 50 ≤ k then g.overRange + 1 else g.overRange
            maxMomentary := some (max (g.maxMomentary.getD k) k) } v'
          (increment .blocksBinned i :: (if 50 ≤ k then [increment .blocksOverRange i] else [])
            ++ result true (decide (x.record.speechFloor ≤ k)))

/-- R58 to R61: the gated integration of a histogram of 150 counts. It is NOT_MEASURED exactly when every count is 0. Otherwise the
bin b stands at its centre −70 + 0.5·b + 0.25 LUFS with the weight 10^(centre/10); the first pass takes the mean weight of all
counted blocks, whose level less 10 LU is the gate; the second takes the mean weight of the blocks in the bins whose centre is at
or above the gate, whose level is the integrated loudness. The code is ten times that, rounded (where within 0.0005 LU of a
half-tenth boundary either neighbour may be reported: which, is a free value, log entry 2), and −697 where that gives −698; so it
lies between −697 and 48. -/
def Obligations.IntegratedCodesLieInRange : Prop :=
  ∀ bins : Vector Nat 150, (∀ b : Fin 150, bins[b] ≤ 2 ^ 32 - 1) →
    let rounds (v : ℝ) (c : Int) : Prop := c = ⌊v + 1 / 2 + 1 / 200⌋ ∨ c = ⌊v + 1 / 2 - 1 / 200⌋
    let centre (b : Fin 150) : ℝ := -70 + 1 / 2 * b.val + 1 / 4
    let weight (b : Fin 150) : ℝ := (10 : ℝ) ^ (centre b / 10)
    let n₁ : Nat := ∑ b : Fin 150, bins[b]
    let s₁ : ℝ := ∑ b : Fin 150, bins[b] * weight b
    let gate : ℝ := 10 * Real.logb 10 (s₁ / n₁) - 10
    (gatedIntegration bins.toList = none ↔ ∀ b : Fin 150, bins[b] = 0) ∧
    ∀ c, gatedIntegration bins.toList = some c →
      -697 ≤ c ∧ c ≤ 48 ∧
      ∀ kept : Fin 150 → Nat, (∀ b, gate ≤ centre b → kept b = bins[b]) → (∀ b, centre b < gate → kept b = 0) →
        let n₂ : Nat := ∑ b : Fin 150, kept b
        let s₂ : ℝ := ∑ b : Fin 150, kept b * weight b
        ∃ k, rounds (10 * (10 * Real.logb 10 (s₂ / n₂))) k ∧ c = max (-697) k

/-- R64, R65: START SURVEY begins a survey of the classes named from zero, in every state; STOP SURVEY stops an active one, is without
effect on a stopped one and is refused with STATE in IDLE. -/
def Obligations.SurveysStartAndStop : Prop :=
  ∀ (s : State) (rq : Req) (n classes : Nat),
    let c := Instr.startSurvey rq n classes
    let e := Instr.stopSurvey rq n
    let stamp : MiMark := match s.station.time with
      | none => .unset
      | some m => .at m
    (16 ≤ n ∨ 32 ≤ classes → exec c s = .next ((s.arrive c).respond rq .badArgument .nothing)) ∧
    (16 ≤ n → exec e s = .next ((s.arrive e).respond rq .badArgument .nothing)) ∧
    ∀ i : Svc, n = i.val →
      let x := s.meter[i]
      let with' (u : State) (v : Survey) : State := { u with meter := s.meter.set i { x with survey := v } }
      (classes < 32 →
        exec c s = .next ((with' (s.arrive c)
          { state := .active, classes := BitVec.ofNat 5 classes, startMi := stamp, stopMi := .none
            bins := Vector.replicate 150 0, belowGate := 0, saturated := false }).respond rq .ok .nothing)) ∧
      (x.survey.state = .idle → exec e s = .next ((s.arrive e).respond rq .state .nothing)) ∧
      (x.survey.state = .active →
        exec e s = .next ((with' (s.arrive e) { x.survey with state := .stopped, stopMi := stamp }).respond rq .ok
          .nothing)) ∧
      (x.survey.state = .stopped → exec e s = .next ((s.arrive e).respond rq .ok .nothing))

/-- R46, R47, R52, R68, R79 to R82, R87, R88 are kept by every step. No ring holds more than 30 entries; for every segment, binned,
below-gate and excluded blocks are together max(0, d − 3); no survey count passes 2^32 − 1. With R12's ranges of the service
records, no row that is occupied stands at persistence 0, a watched stream that is not LOST has its timer above 0, and in every
segment covered MIs are audible, audible ones judged, and judged ones combined. -/
def Obligations.EveryStepKeepsMeterAndCheckerBalanced : Prop :=
  (∀ s t : State, (∀ i : Svc, s.meter[i].Good) → step s = .next t → ∀ i : Svc, t.meter[i].Good) ∧
  ∀ s t : State, s.GoodRecords → (∀ i : Svc, s.checker[i].Good) → step s = .next t →
    t.GoodRecords ∧ ∀ i : Svc, t.checker[i].Good

/-- R75, R76, R78 to R82: caption packets and expiries at the checker. In IDLE, or of another stream, a packet is discarded; a malformed
one is counted and nothing else; a well-formed one is counted, makes the stream LIVE with its timer restarted (with a notice when
it was lost from LIVE), and then a TEXT occupies its row, or clears it with no characters, and an ERASE clears its row, or all. A
row whose persistence stands at 0 is cleared. A stream that is not LOST and whose timer stands at 0 becomes LOST with every row
cleared; from LIVE that is counted and raises CAPTION_STREAM_LOST. That the two commands ROW_PERSISTENCE_EXPIRY and
CAPTION_STREAM_EXPIRY act on a row or a timer that stands at 0, and have no effect otherwise, since the tick that brings them to 0
makes the expiry itself, is the model's reading of these rows (log entry 4, DEDUCED). -/
def Obligations.CaptionStreamAndRowsFollowThePackets : Prop :=
  (∀ (s : State) (i : Svc) (p : CaptionPacket),
     let c := Instr.checkerCaptionPacket i p
     let u := s.arrive c
     let x := s.checker[i]
     let malformed : Prop := (p.kind ≠ 1 ∧ p.kind ≠ 2 ∧ p.kind ≠ 3) ∨ (16 ≤ p.row ∧ p.row ≠ 255) ∨ 42 < p.count ∨
       (p.kind = 1 ∧ p.row = 255)
     let alive : CheckerSvc := { x with stream := .live, timer := x.record.streamTimeout }
     let sent : List Instr := increment .captionPackets i ::
       (if x.stream = .lostFromLive then
         [notice .captionStreamRestored (some i) x.lastTick
           (.captionStream x.record.captionLane.val x.record.captionStream.val)]
       else [])
     let gives (y : CheckerSvc) (ms : List Instr) : Prop :=
       exec c s = .next ({ u with checker := s.checker.set i y }.send ms)
     (x.run = .idle ∨ p.stream ≠ x.record.captionStream.val → exec c s = .next u) ∧
     (x.run ≠ .idle → p.stream = x.record.captionStream.val →
       (malformed → gives x [increment .captionMalformed i]) ∧
       (¬ malformed →
         (p.kind = 3 → gives alive sent) ∧
         (p.kind = 2 → p.row = 255 → gives { alive with rows := Vector.replicate 16 none } sent) ∧
         ∀ r : Fin 16, p.row = r.val →
           (p.kind = 2 ∨ (p.kind = 1 ∧ p.count = 0) → gives { alive with rows := x.rows.set r none } sent) ∧
           (p.kind = 1 → p.count ≠ 0 →
             gives
               { alive with
                 rows := x.rows.set r (some (RowText.mk (p.duration.map fun d => max 1 (min 600 d)) p.count))
                 textSeen := x.textSeen || x.record.rowMask.getLsbD r.val } sent)))) ∧
  ∀ (s : State) (i : Svc) (r : Fin 16),
    let x := s.checker[i]
    let lost (st : StreamState) : State :=
      { s with checker := s.checker.set i { x with stream := st, rows := Vector.replicate 16 none } }
    (∀ n, x.rows[r] = some ⟨some 0, n⟩ →
      exec (.rowPersistenceExpiry i r) s = .next { s with checker := s.checker.set i { x with rows := x.rows.set r none } }) ∧
    ((∀ n, x.rows[r] ≠ some ⟨some 0, n⟩) → exec (.rowPersistenceExpiry i r) s = .next s) ∧
    (x.run = .idle ∨ x.timer ≠ 0 ∨ x.stream = .lostFromLive ∨ x.stream = .lostFromWaiting →
      exec (.captionStreamExpiry i) s = .next s) ∧
    (x.run ≠ .idle → x.timer = 0 → x.stream = .waiting →
      exec (.captionStreamExpiry i) s = .next (lost .lostFromWaiting)) ∧
    (x.run ≠ .idle → x.timer = 0 → x.stream = .live →
      exec (.captionStreamExpiry i) s =
        .next ((lost .lostFromLive).send
          [increment .captionStreamLosses i,
            notice .captionStreamLost (some i) x.lastTick
              (.captionStream x.record.captionLane.val x.record.captionStream.val)]))

/-- R87 to R91: an MI result is held (in IDLE only when its instance is known), and what is due is combined. A result is due when the
presence list has a record of its MI and the segment list an entry of its instance; of several the one held first is taken, and
none is due exactly when no held result has both. The result that is due is combined with its presence record, both leave their lists, and summaries follow; a summary whose condition holds carries the
tallies of its entry, which leaves the list. A combination adds to the tallies and the gap run of its segment, and counts a run
that reaches the profile's maximum gap. That the two commands CAPTION_COMBINATION and CAPTION_SUMMARY do the step where it is due,
and nothing where an arrival has done it already, is the model's reading of these rows (log entry 4, DEDUCED). -/
def Obligations.ResultsAreCombinedIntoSegments : Prop :=
  (∀ (s : State) (i : Svc) (r : MiResult),
     let x := s.checker[i]
     let p := s.compliance.profiles
     let u := s.arrive (.miResult i r)
     let done (g : CaptionSegment) : Bool := decide (g.endMi = some (g.start + g.combined))
     let summaries (l : List CaptionSegment) : List Instr := (l.filter done).map fun g =>
       .captionSummaryArrival i g.inst ⟨g.judged, g.audible, g.covered, g.gapCount, g.longestGap, g.lost⟩
     (x.run = .idle → (∀ g ∈ x.segments, g.inst ≠ r.inst) →
       exec (.miResult i r) s = .next (u.checkerDoes i (x.settle i p))) ∧
     (x.run ≠ .idle ∨ (∃ g ∈ x.segments, g.inst = r.inst) →
       exec (.miResult i r) s = .next (u.checkerDoes i ({ x with held := x.held ++ [r] }.settle i p))) ∧
     (x.due = none ↔ ∀ q ∈ x.held, (∀ w ∈ x.presence, w.mi ≠ q.mi) ∨ ∀ g ∈ x.segments, g.inst ≠ q.inst) ∧
     (∀ r' w g, x.due = some (r', w, g) ↔
       ∃ before after : List MiResult, x.held = before ++ r' :: after ∧
         (∀ q ∈ before, (∀ w ∈ x.presence, w.mi ≠ q.mi) ∨ ∀ g ∈ x.segments, g.inst ≠ q.inst) ∧
         (x.presence.find? fun w => decide (w.mi = r'.mi)) = some w ∧
         (x.segments.find? fun g => decide (g.inst = r'.inst)) = some g) ∧
     (x.due = none → exec (.captionCombination i) s = .next s) ∧
     (∀ r' w g, x.due = some (r', w, g) →
       r' ∈ x.held ∧ w ∈ x.presence ∧ g ∈ x.segments ∧ w.mi = r'.mi ∧ g.inst = r'.inst ∧
       let c := g.combine i p[g.profile] r' w
       let l := x.segments.map fun e => if e.inst = g.inst then c.1 else e
       exec (.captionCombination i) s =
         .next ({ s with
           checker := s.checker.set i
             { x with
               held := x.held.erase r', presence := x.presence.erase w, segments := l.filter fun e => !done e } }.send
             (c.2 ++ summaries l))) ∧
     exec (.captionSummary i) s =
       .next ({ s with
         checker := s.checker.set i { x with segments := x.segments.filter fun e => !done e } }.send
           (summaries x.segments))) ∧
  ∀ (g : CaptionSegment) (i : Svc) (p : Profile) (r : MiResult) (w : Presence),
    let c := g.combine i p r w
    let heard : Bool := r.judged && r.audible
    let one (b : Bool) : Nat := if b then 1 else 0
    c.1.combined = g.combined + 1 ∧ c.1.judged = g.judged + one r.judged ∧ c.1.audible = g.audible + one heard ∧
    c.1.covered = g.covered + one (heard && w.present) ∧ c.1.lost = g.lost + one w.lost ∧
    (heard = false → c.1.gapRun = g.gapRun ∧ c.1.gapFirst = g.gapFirst ∧ c.1.gapCounted = g.gapCounted ∧
      c.1.gapCount = g.gapCount ∧ c.1.longestGap = g.longestGap ∧ c.2 = []) ∧
    (heard = true → w.present = true → c.1.gapRun = 0 ∧ c.1.gapFirst = none ∧ c.1.gapCounted = false ∧
      c.1.gapCount = g.gapCount ∧ c.1.longestGap = g.longestGap ∧ c.2 = []) ∧
    (heard = true → w.present = false →
      c.1.gapRun = g.gapRun + 1 ∧ c.1.longestGap = max g.longestGap (g.gapRun + 1) ∧
      c.1.gapFirst = (if g.gapRun = 0 then some r.mi else g.gapFirst) ∧
      ((∃ n, p.maxGap = some n ∧ n ≤ g.gapRun + 1) → g.gapCounted = false →
        c.1.gapCounted = true ∧ c.1.gapCount = g.gapCount + 1 ∧
        c.2 = if p.captions then
          [notice .captionGap (some i) (some ((r.mi + 1) % 2 ^ 40)) (.gap g.id ((c.1.gapFirst).getD r.mi))]
        else []) ∧
      ((∀ n, p.maxGap = some n → g.gapRun + 1 < n) ∨ g.gapCounted = true →
        c.1.gapCounted = g.gapCounted ∧ c.1.gapCount = g.gapCount ∧ c.2 = []))

/-! ### Chapter 6: compliance -/

/-- R105 to R110: the six checks of a record, and its verdict. -/
def Obligations.ChecksAndVerdictOfARecord : Prop :=
  (∀ (p : Profile) (cls : SegClass) (m : MeterSummary) (c : CaptionSummary) (ref : Option Reference),
    let k := checksOf p cls m c ref
    (m.integrated = none → k.loudness = .notMeasured) ∧
    (∀ v, m.integrated = some v →
      k.loudness = if -(p.tolerance : Int) ≤ v - p.target ∧ v - p.target ≤ p.tolerance then .pass else .fail) ∧
    (p.shortTerm = none → k.shortTerm = .notApplicable) ∧
    (∀ l, p.shortTerm = some l → m.maxShortTerm = none → k.shortTerm = .notMeasured) ∧
    (∀ l v, p.shortTerm = some l → m.maxShortTerm = some v → k.shortTerm = if v ≤ l then .pass else .fail) ∧
    (p.peak = none → k.peak = .notApplicable) ∧
    (∀ l, p.peak = some l → m.peak = none → k.peak = .notMeasured) ∧
    (∀ l v, p.peak = some l → m.peak = some v → k.peak = if v ≤ l then .pass else .fail) ∧
    (cls ≠ .advert ∧ cls ≠ .promotion ∨ p.relative = none →
      k.relative = .notApplicable ∧ referenceUsed p cls ref = none) ∧
    (cls = .advert ∨ cls = .promotion → p.relative ≠ none →
      referenceUsed p cls ref = ref ∧
      (m.integrated = none ∨ ref = none → k.relative = .notMeasured) ∧
      ∀ l v r, p.relative = some l → m.integrated = some v → ref = some r →
        k.relative = if v - r.code ≤ (l : Int) then .pass else .fail) ∧
    (p.captions = false → k.coverage = .notApplicable ∧ k.captionGap = .notApplicable) ∧
    (p.captions = true → c.audible = 0 → k.coverage = .notMeasured) ∧
    (p.captions = true → c.audible ≠ 0 →
      k.coverage = if p.minCoverage * c.audible ≤ c.covered * 1000 then .pass else .fail) ∧
    (p.maxGap = none → k.captionGap = .notApplicable) ∧
    (∀ n, p.captions = true → p.maxGap = some n → k.captionGap = if c.gapCount = 0 then .pass else .fail)) ∧
  ∀ k : Checks,
    let results : List CheckResult := [k.loudness, k.shortTerm, k.peak, k.relative, k.coverage, k.captionGap]
    (.fail ∈ results → verdictOf k = .fail) ∧
    (.fail ∉ results → .pass ∈ results → verdictOf k = .pass) ∧
    (.fail ∉ results → .pass ∉ results → verdictOf k = .notMeasured)

/-- R101 to R104: the fields of a record. A skipped segment and one handed over at warm reset have every check NOT_MEASURED; the fields
of a summary that was not received are 0 or absent. That the record of a segment handed over at warm reset uses no reference is
the model's reading (log entry 20, DEDUCED). -/
def Obligations.RecordFieldsOfACompletion : Prop :=
  ∀ (seq : Nat) (svc : Svc) (g : Segment) (p : Profile) (ref : Option Reference) (e : Mi) (cause : Cause),
    g.endMi = some e → g.cause = some cause →
    let r := assembleRecord seq svc g p ref
    (r.seq = seq ∧ r.svc = svc ∧ r.id = g.id ∧ r.cls = g.cls ∧ r.profile = g.profile ∧ r.stagedStart = g.stagedStart ∧
      r.actualStart = g.actualStart ∧ r.endMi = e ∧ r.cause = cause ∧ r.late = g.late ∧
      r.referenceLost = g.referenceLost ∧ r.incomplete = g.incomplete ∧ r.hold = .none) ∧
    (∀ m, g.meterSummary = some m →
      r.positions = m.positions ∧ r.binned = m.binned ∧ r.belowGate = m.belowGate ∧ r.excluded = m.excluded ∧
      r.overRange = m.overRange ∧ r.integrated = m.integrated ∧ r.maxMomentary = m.maxMomentary ∧
      r.maxShortTerm = m.maxShortTerm ∧ r.peak = m.peak) ∧
    (g.meterSummary = none →
      r.positions = 0 ∧ r.binned = 0 ∧ r.belowGate = 0 ∧ r.excluded = 0 ∧ r.overRange = 0 ∧ r.integrated = none ∧
      r.maxMomentary = none ∧ r.maxShortTerm = none ∧ r.peak = none) ∧
    (∀ c, g.captionSummary = some c →
      r.judged = c.judged ∧ r.audible = c.audible ∧ r.covered = c.covered ∧ r.gapCount = c.gapCount ∧
      r.longestGap = c.longestGap ∧ r.streamLost = c.streamLost) ∧
    (g.captionSummary = none →
      r.judged = 0 ∧ r.audible = 0 ∧ r.covered = 0 ∧ r.gapCount = 0 ∧ r.longestGap = 0 ∧ r.streamLost = 0) ∧
    (cause = .skipped ∨ cause = .reset →
      (∀ k ∈ r.checks.list, k = .notMeasured) ∧ r.verdict = .notMeasured ∧ r.refUsed = none) ∧
    (cause ≠ .skipped → cause ≠ .reset → ∀ m c, g.meterSummary = some m → g.captionSummary = some c →
      r.checks = checksOf p g.cls m c ref ∧ r.verdict = verdictOf r.checks ∧ r.refUsed = referenceUsed p g.cls ref)

/-- R99, R100, R111 to R114: the writing of records. A completion taken with no write in progress takes the next sequence. With verdict
FAIL it is counted, asks for an automatic hold over its guarded span and stays in progress; HOLD_ANSWER then stores it with its
hold. Otherwise it is stored at once. Storing puts it behind the log, in the place of the oldest record when 4096 are held, which
is counted and noticed as lost when its sequence is above the collection mark; a PROGRAMME with an integrated code becomes the
reference of its service; and SEGMENT_CLOSED, and VIOLATION for a FAIL, are raised. What waits is taken in order, and what is
handed over joins what waits. The model's reading (DEDUCED): the command RECORD_WRITE takes what waits as far as it can be taken,
which an arrival has done already (log entry 4); and the clearing of the references by a warm reset, and its zeroing of the
counters, stand behind the completions that it finds waiting, so that a write before it sends no increment (log entry 13). -/
def Obligations.CompletionsAreWrittenInOrder : Prop :=
  ∀ (s : State),
    let x := s.compliance
    let oldest (y : Compliance) : Option Record := if y.log.length < 4096 then none else y.log.head?
    let lost (y : Compliance) : Bool := match oldest y with
      | none => false
      | some o => decide (y.mark < o.seq)
    let stored (y : Compliance) (r : Record) : Compliance :=
      { y with
        writing := none
        loss := 0
        log := (if (oldest y).isSome then y.log.tail else y.log)
          ++ [{ r with lostBefore := if lost y then y.loss + 1 else y.loss }]
        refs := match r.integrated with
          | none => y.refs
          | some v => if r.cls = .programme ∧ r.cause ≠ .reset then y.refs.set r.svc (some ⟨v, r.seq⟩) else y.refs }
    let raised (y : Compliance) (r : Record) : List Instr :=
      (match oldest y with
        | none => []
        | some o => if y.mark < o.seq then
          [.counterIncrement .logRecordsLost, notice .logLoss (some o.svc) s.station.time (.sequence o.seq)] else [])
        ++ [notice .segmentClosed (some r.svc) s.station.time (.sequence r.seq)]
        ++ (if r.verdict = .fail then [notice .violation (some r.svc) s.station.time (.sequence r.seq)] else [])
    let isIncrement (c : Instr) : Bool := match c with
      | .counterIncrement _ => true
      | _ => false
    let sent (ws : List Waiting) (ms : List Instr) : List Instr :=
      if .clearReferences ∈ ws then ms.filter fun c => !isIncrement c else ms
    (∀ ws, s.complete ws = { s with compliance := { x with waiting := x.waiting ++ ws } }.settleWrites) ∧
    (∀ (hold : Option (Fin 32)),
      let u := s.arrive (.holdAnswer hold)
      (x.writing = none → exec (.holdAnswer hold) s = .next u) ∧
      ∀ r, x.writing = some r →
        let r' : Record := { r with hold := match hold with
          | none => .unavailable
          | some n => .hold n }
        exec (.holdAnswer hold) s =
          .next (({ u with compliance := stored x r' }.send (sent x.waiting (raised x r'))).settleWrites)) ∧
    exec .recordWrite s = .next s.settleWrites ∧
    (x.writing.isSome ∨ x.waiting = [] → s.settleWrites = s) ∧
    (∀ rest, x.writing = none → x.waiting = .clearReferences :: rest →
      s.settleWrites =
        { s with compliance := { x with refs := Vector.replicate 16 none, waiting := rest } }.settleWrites) ∧
    ∀ svc g rest, x.writing = none → x.waiting = .completion svc g :: rest →
      let y : Compliance := { x with waiting := rest, nextSeq := min (2 ^ 48 - 1) (x.nextSeq + 1) }
      let r := assembleRecord x.nextSeq svc g x.profiles[g.profile] x.refs[svc]
      let guardMi := s.map[svc].holdGuard
      (x.lastWritten = 2 ^ 48 - 1 →
        s.settleWrites = { s with compliance := { x with waiting := rest } }.settleWrites) ∧
      (x.lastWritten ≠ 2 ^ 48 - 1 → r.verdict = .fail →
        s.settleWrites =
          { s with compliance := { y with writing := some r } }.send (sent rest
            [increment .segmentsFailed svc,
              .automaticHoldRequest svc (r.actualStart - guardMi) (min (2 ^ 40 - 1) (r.endMi + guardMi)) r.seq])) ∧
      (x.lastWritten ≠ 2 ^ 48 - 1 → r.verdict ≠ .fail →
        s.settleWrites = ({ s with compliance := stored y r }.send (sent rest (raised y r))).settleWrites)

/-- R95 to R97: WRITE PROFILE stores its nine fields, each number brought into its range and NONE kept, and answers with the profile
as stored; the marker DEFAULT loads the field's default. A profile number of 8 or more is refused and changes nothing; so are, by
the model's reading (log entry 16, DEDUCED), NONE for a field that does not accept it, a marker byte above 02, and a yes-or-no
byte above 01. -/
def Obligations.WriteProfileStoresClampedFields : Prop :=
  (∀ (s : State) (rq : Req) (n : Nat) (a : ProfileArgs),
    let c := Instr.writeProfile rq n a
    let u := s.arrive c
    (∀ (k : Fin 8) (p : Clamped Profile), n = k.val → readProfileArgs a = some p →
      exec c s =
        .next ({ u with compliance := { s.compliance with profiles := s.compliance.profiles.set k p.val } }.respond rq
          (if p.changed then .clamped else .ok) (.profile k p.val))) ∧
    (8 ≤ n ∨ readProfileArgs a = none → exec c s = .next (u.respond rq .badArgument .nothing))) ∧
  (∀ a : ProfileArgs,
    let bad {α : Type} (x : Arg α) : Prop := x = .absent ∨ x = .badMarker
    readProfileArgs { a with target := .dflt } = readProfileArgs { a with target := .value (-230) } ∧
    readProfileArgs { a with tolerance := .dflt } = readProfileArgs { a with tolerance := .value 10 } ∧
    readProfileArgs { a with shortTerm := .dflt } = readProfileArgs { a with shortTerm := .absent } ∧
    readProfileArgs { a with peak := .dflt } = readProfileArgs { a with peak := .value (-10) } ∧
    readProfileArgs { a with relative := .dflt } = readProfileArgs { a with relative := .absent } ∧
    readProfileArgs { a with captions := .dflt } = readProfileArgs { a with captions := .value 0 } ∧
    readProfileArgs { a with minCoverage := .dflt } = readProfileArgs { a with minCoverage := .value 900 } ∧
    readProfileArgs { a with maxGap := .dflt } = readProfileArgs { a with maxGap := .value 100 } ∧
    readProfileArgs { a with overrun := .dflt } = readProfileArgs { a with overrun := .value 50 } ∧
    (bad a.target ∨ bad a.tolerance ∨ a.shortTerm = .badMarker ∨ a.peak = .badMarker ∨ a.relative = .badMarker ∨
      bad a.captions ∨ bad a.minCoverage ∨ a.maxGap = .badMarker ∨ bad a.overrun ∨ (∃ n, 2 ≤ n ∧ a.captions = .value n) →
      readProfileArgs a = none)) ∧
  ∀ (s : State) (rq : Req) (n : Nat) (target : Int) (tol : Nat) (short peak : Option Int) (rel : Option Nat)
      (captions : Bool) (cover : Nat) (gap : Option Nat) (grace : Nat),
    let num {α : Type} (o : Option α) : Arg α := match o with
      | none => .absent
      | some v => .value v
    let a : ProfileArgs :=
      ⟨.value target, .value tol, num short, num peak, num rel, .value (if captions then 1 else 0), .value cover, num gap,
        .value grace⟩
    let p : Profile :=
      { target := max (-700) (min 0 target), tolerance := min 100 tol
        shortTerm := short.map fun v => max (-700) (min 50 v), peak := peak.map fun v => max (-600) (min 0 v)
        relative := rel.map fun v => min 100 v, captions := captions, minCoverage := min 1000 cover
        maxGap := gap.map fun v => max 1 (min 6000 v), overrun := min 36000 grace }
    let same : Prop := p.target = target ∧ p.tolerance = tol ∧ p.shortTerm = short ∧ p.peak = peak ∧ p.relative = rel ∧
      p.minCoverage = cover ∧ p.maxGap = gap ∧ p.overrun = grace
    let c := Instr.writeProfile rq n a
    let u := s.arrive c
    (8 ≤ n → exec c s = .next (u.respond rq .badArgument .nothing)) ∧
    ∀ k : Fin 8, n = k.val →
      let done := { u with compliance := { s.compliance with profiles := s.compliance.profiles.set k p } }
      (same → exec c s = .next (done.respond rq .ok (.profile k p))) ∧
      (¬ same → exec c s = .next (done.respond rq .clamped (.profile k p)))

/-- R115: COLLECT, by the sequence it carries; the response carries the collection mark as it stands after the request. -/
def Obligations.CollectMovesTheMark : Prop :=
  ∀ (s : State) (rq : Req) (n : Nat),
    let c := Instr.collect rq n
    let u := s.arrive c
    let x := s.compliance
    (x.lastWritten < n → exec c s = .next (u.respond rq .badArgument (.mark x.mark))) ∧
    (n < x.mark → n ≤ x.lastWritten → exec c s = .next (u.respond rq .ok (.mark x.mark))) ∧
    (x.mark ≤ n → n ≤ x.lastWritten →
      exec c s = .next ({ u with compliance := { x with mark := n } }.respond rq .ok (.mark n)))

/-- R116, R113: READ LOG, by the sequence it carries, in a log that is in order. It changes nothing of the log. -/
def Obligations.ReadLogFindsHeldRecords : Prop :=
  ∀ (s : State) (rq : Req) (n : Nat), s.compliance.Good →
    let c := Instr.readLog rq n
    let u := s.arrive c
    let x := s.compliance
    let oldest := max 1 (x.lastWritten - 4095)
    (n = 0 → exec c s = .next (u.respond rq .badArgument .nothing)) ∧
    (1 ≤ n → n < oldest → exec c s = .next (u.respond rq .gone (.logGone oldest x.lastWritten x.mark))) ∧
    (oldest ≤ n → n ≤ x.lastWritten →
      ∃ r ∈ x.log, r.seq = n ∧ exec c s = .next (u.respond rq .ok (.record r x.lastWritten x.mark))) ∧
    (x.lastWritten < n → 1 ≤ n →
      exec c s = .next (u.respond rq .notFound (.logNotFound x.lastWritten x.mark)))

/-- R95, R97, R113 to R115, R120, R125, R136 are kept by every step: the log holds the last 4096 records in consecutive sequence, each
write takes the sequence after the last, matters wait only behind a write in progress, and the mark is never above the last
written; every profile stays in its ranges; the slot count is a multiple of 4096 from 4096 to 65536, the reserves are in order and
at most the slot count, and the threshold lies between 1024 and the slot count. -/
def Obligations.EveryStepKeepsLogAndSettings : Prop :=
  (∀ s t : State, s.compliance.Good → step s = .next t → t.compliance.Good) ∧
  (∀ s t : State, (∀ k : Fin 8, s.compliance.profiles[k].Good) → step s = .next t →
     ∀ k : Fin 8, t.compliance.profiles[k].Good) ∧
  ∀ s t : State, s.store.GoodSettings → step s = .next t → t.store.GoodSettings

/-! ### Chapter 7: the recorder -/

/-- R120, R125, R136: CONFIGURE STORE, SET RESERVES and the test of the backlog state. A slot count is brought to the nearest multiple of
4096 from 4096 to 65536, the higher one half-way; the reserves are brought into range and into order, and the marker DEFAULT
loads 2048, 1024, 256 and half the slot count; the backlog state turns HIGH at the threshold and NORMAL at 256 below it, each
with its notice. That the marker NONE and a marker byte above 02 are refused is the model's reading (log entry 16, DEDUCED). -/
def Obligations.StoreIsConfiguredAndItsBacklogTested : Prop :=
  ((∀ (s : State) (rq : Req) (n count : Nat),
     let c := Instr.configureStore rq n
     let u := s.arrive c
     let x := s.store
     let free : Prop := (∀ e ∈ x.slots, ∃ t, e.2.state = .archived t) ∧ ∀ k : Fin 32, s.holds[k] = none
     (¬ free → exec c s = .next (u.respond rq .state .nothing)) ∧
     (free → 4096 ∣ count → 4096 ≤ count → count ≤ 65536 →
       (n < 4096 ∧ count = 4096 ∨ 65536 < n ∧ count = 65536 ∨
         4096 ≤ n ∧ n ≤ 65536 ∧ count ≤ n + 2048 ∧ n < count + 2048) →
       let y : Store :=
         { slotCount := count, slots := [], sealCount := x.sealCount, reserve0 := min x.reserve0 count
           reserve1 := min x.reserve1 count, reserve2 := min x.reserve2 count, threshold := count / 2
           backlog := .normal }
       exec c s =
         .next (({ u with store := y }.send (x.slots.map fun e : Nat × Slot => Instr.removeEntry e.2.svc e.1 e.2.start)).respond rq
           (if n = count then .ok else .clamped) (.store count y.threshold y.reserve0 y.reserve1 y.reserve2)))) ∧
   ∀ (s : State) (rq : Req) (a b c threshold : Nat), 1024 ≤ s.store.slotCount →
     let cmd := Instr.setReserves rq ⟨.value a, .value b, .value c, .value threshold⟩
     let x := s.store
     let r2 := min c x.slotCount
     let r1 := max (min b x.slotCount) r2
     let r0 := max (min a x.slotCount) r1
     let th := max 1024 (min threshold x.slotCount)
     r2 ≤ r1 ∧ r1 ≤ r0 ∧
     exec cmd s =
       .next ({ s.arrive cmd with store := { x with reserve0 := r0, reserve1 := r1, reserve2 := r2, threshold := th }
         }.testBacklog.respond rq (if r0 = a ∧ r1 = b ∧ r2 = c ∧ th = threshold then .ok else .clamped)
           (.reserves r0 r1 r2 th))) ∧
  (∀ (s : State) (rq : Req) (a : ReserveArgs),
    let c := Instr.setReserves rq a
    let n := s.store.slotCount
    let bad (x : Arg Nat) : Prop := x = .absent ∨ x = .badMarker
    (∀ r, readReserveArgs n a = some r →
      exec c s = .next ({ s.arrive c with
        store := { s.store with
          reserve0 := r.val.reserve0, reserve1 := r.val.reserve1, reserve2 := r.val.reserve2
          threshold := r.val.threshold } }.testBacklog.respond rq (if r.changed then .clamped else .ok)
            (.reserves r.val.reserve0 r.val.reserve1 r.val.reserve2 r.val.threshold))) ∧
    (readReserveArgs n a = none → exec c s = .next ((s.arrive c).respond rq .badArgument .nothing)) ∧
    (bad a.reserve0 ∨ bad a.reserve1 ∨ bad a.reserve2 ∨ bad a.threshold → readReserveArgs n a = none) ∧
    readReserveArgs n { a with reserve0 := .dflt } = readReserveArgs n { a with reserve0 := .value 2048 } ∧
    readReserveArgs n { a with reserve1 := .dflt } = readReserveArgs n { a with reserve1 := .value 1024 } ∧
    readReserveArgs n { a with reserve2 := .dflt } = readReserveArgs n { a with reserve2 := .value 256 } ∧
    readReserveArgs n { a with threshold := .dflt } = readReserveArgs n { a with threshold := .value (n / 2) }) ∧
  ∀ s : State,
    let x := s.store
    let backlog := (x.slots.filter fun e => decide (e.2.state = .sealed)).length
    (x.backlog = .normal → x.threshold ≤ backlog →
      s.testBacklog = { s with store := { x with backlog := .high } }.send
        [notice .backlogHigh none s.station.time (.backlog backlog x.threshold)]) ∧
    (x.backlog = .high → backlog ≤ x.threshold - 256 →
      s.testBacklog = { s with store := { x with backlog := .normal } }.send
        [notice .backlogNormal none s.station.time (.backlog backlog x.threshold)]) ∧
    (x.backlog = .normal → backlog < x.threshold → s.testBacklog = s) ∧
    (x.backlog = .high → x.threshold - 256 < backlog → s.testBacklog = s)

/-- R126 to R128, R139: the slot for a new chunk, in a chunk table in its canonical form. A slot that is FILLING, IN_TRANSFER or held is
never chosen. -/
def Obligations.SlotChoiceFollowsTheReserves : Prop :=
  ∀ (x : Store) (r : ServiceRecord), x.GoodTable →
    let reserve := match r.priority with
      | 0 => x.reserve0
      | 1 => x.reserve1
      | 2 => x.reserve2
      | 3 => 0
    let archived (y : Slot) : Prop := (∃ t, y.state = .archived t) ∧ y.holdCount = 0
    let reusable := x.slotCount - x.slots.length + (x.slots.filter fun e => e.2.isReusable).length
    let lowest (y : Slot) (p : Slot → Prop) : Prop :=
      ∀ e ∈ x.slots, p e.2 → y.sealNo.getD 0 ≤ e.2.sealNo.getD 0
    (∀ e ∈ x.slots, e.2.isReusable = true ↔ archived e.2) ∧
    (∀ n, x.choose r = .free n →
      reserve < reusable ∧ n < x.slotCount ∧ slotAt n x.slots = none ∧ ∀ k < n, slotAt k x.slots ≠ none) ∧
    (∀ n y, x.choose r = .reuse n y →
      reserve < reusable ∧ slotAt n x.slots = some y ∧ archived y ∧ (∀ k < x.slotCount, slotAt k x.slots ≠ none) ∧
      lowest y archived) ∧
    (∀ n y, x.choose r = .overwrite n y →
      reusable ≤ reserve ∧ r.overwrite = true ∧ slotAt n x.slots = some y ∧ y.state = .sealed ∧ y.holdCount = 0 ∧
      lowest y fun z => z.state = .sealed ∧ z.holdCount = 0) ∧
    (x.choose r = .none ↔
      2 ^ 32 - 1 ≤ x.sealCount ∨
      (reusable ≤ reserve ∧ (r.overwrite = false ∨ ∀ e ∈ x.slots, ¬ (e.2.state = .sealed ∧ e.2.holdCount = 0))))

/-- R122 to R124, R126, R128 to R130: an on-air message. In IDLE it is discarded; in ACTIVE it joins the on-air list. The first of a run
makes the run ACTIVE from its MI T, with held input below T discarded; and of a service that records, opens the span that contains
T, in the slot chosen, whose former chunk is given up or lost, or as a gap; the input held is then sorted into that span, and a
boundary that is so passed is passed. That the keep set is chosen before the fall of the backlog by an overwrite is tested, and
that UNARCHIVED_OVERWRITE of a first span carries the start of that span, is the model's reading (log entry 14, DEDUCED). -/
def Obligations.OnAirMessageOpensTheFirstSpan : Prop :=
  ∀ (s : State) (i : Svc) (m : OnAirMsg),
    let c := Instr.onAirMessage i m
    let u := s.arrive c
    let x := s.recorder[i]
    let a := s.around i
    let b := 20 * (m.start / 20)
    let begun : RecorderSvc :=
      { x with run := .active, runStart := some m.start, runInst := some m.inst, onAir := x.onAir ++ [⟨m.id, m.start⟩] }
    (x.run = .idle → exec c s = .next u) ∧
    (x.run = .active →
      exec c s = .next (u.worked i ((Work.mk { x with onAir := x.onAir ++ [⟨m.id, m.start⟩] } s.store []).settle a))) ∧
    (x.run = .active → (s.work i).passed = none →
      exec c s = .next { u with recorder := s.recorder.set i { x with onAir := x.onAir ++ [⟨m.id, m.start⟩] } }) ∧
    (x.run = .waiting → x.enable ≠ some true → x.span = none →
      exec c s = .next { u with
        recorder := s.recorder.set i { begun with held := x.held.filter fun h => decide (m.start ≤ h.mi) } }) ∧
    (x.run = .waiting → x.enable = some true →
      let w : Work := ⟨{ begun with held := x.held.filter fun h => decide (m.start ≤ h.mi) }, s.store, []⟩
      exec c s = .next (u.worked i (((w.openSpan a b m.start).sortHeld).settle a))) ∧
    (x.run = .waiting → x.enable = some true → x.held = [] → x.state = none →
      let keep := if s.store.backlog = .normal then KeepSet.normal else .reduced
      let slot : Slot :=
        { state := .filling, svc := i, start := b, keepUsed := keep, sealNo := none
          holdCount := holdsOver s.holds i b, length := 4096 + 384000, cutShort := false, fillFrames := false
          chunk :=
            { audio := Vector.replicate 20 [], frames := [], packets := [], overflow := Vector.replicate 20 0, absent := 0
              first := m.start, endMi := m.start, segments := [], more := false
              keep := if s.store.backlog = .normal then x.record.normalKeep else x.record.reducedKeep } }
      let opened (n : Nat) (ms : List Instr) : State :=
        { u with
          recorder := s.recorder.set i { begun with span := some ⟨b, some n, 0⟩, state := some .recording, held := [] }
          store := { s.store with slots := putSlot n slot s.store.slots } }.send (ms ++ [Instr.appendStored i n b])
      (∀ n, s.store.choose x.record = .free n → exec c s = .next (opened n [])) ∧
      (∀ n old, s.store.choose x.record = .reuse n old →
        exec c s = .next (opened n [.removeEntry old.svc n old.start])) ∧
      (∀ n old, s.store.choose x.record = .overwrite n old →
        exec c s = .next (opened n
          [.markLost old.svc n old.start, increment .unarchivedOverwrites old.svc,
            notice .unarchivedOverwrite (some old.svc) (some b) (.lostChunk n old.start)]).testBacklog) ∧
      (s.store.choose x.record = .none →
        exec c s = .next ({ u with
          recorder := s.recorder.set i
            { begun with span := some ⟨b, none, 0⟩, state := some .notRecording, held := [] } }.send
            [.recordingStateChanged i .notRecording m.start m.inst,
              notice .recordingGap (some i) (some m.start) (.priority x.record.priority.val)])))

/-- R123, R124, R131 to R133, R135: an item of input of a service that records. In WAITING every item is held. In ACTIVE an item of the
current span is applied to its filling chunk, one of a later span is held, one below the span is discarded; and when its judgment
lets the boundary be passed, the boundary is passed (ArrivalsLeaveNothingDue says how). That packets and proxy frames below the
run start are stored, while samples and absent marks are not, is the model's reading (log entry 14, DEDUCED). -/
def Obligations.RecorderInputIsSortedAndStored : Prop :=
  ∀ (s : State) (i : Svc) (m : Mi) (c : Instr) (item : RecorderItem),
    ((∃ f, c = .recorderSampleFrame i m f ∧ item = .frame f) ∨ (∃ j, c = .recorderJudgment i m j ∧ item = .judgment j) ∨
      (∃ p, c = .recorderCaptionPacket i m p ∧ item = .packet p) ∨
      (∃ f, c = .recorderProxyFrame i m f ∧ item = .proxy f)) →
    let u := s.arrive c
    let x := s.recorder[i]
    let w := s.work i
    let a := s.around i
    let held : State := { u with recorder := s.recorder.set i { x with held := x.held ++ [⟨m, item⟩] } }
    (x.run = .idle ∨ x.enable ≠ some true → w.passed = none → exec c s = .next u) ∧
    (x.run = .waiting → x.enable = some true → exec c s = .next held) ∧
    (x.run = .active → x.enable = some true → exec c s = .next (u.worked i ((w.sort ⟨m, item⟩).settle a))) ∧
    ∀ p : Span, x.run = .active → x.enable = some true → x.span = some p →
      (m < p.start → w.sort ⟨m, item⟩ = w ∧ (w.passed = none → exec c s = .next u)) ∧
      (p.start + 20 ≤ m →
        w.sort ⟨m, item⟩ = { w with x := { x with held := x.held ++ [⟨m, item⟩] } } ∧
        (w.passed = none → exec c s = .next held)) ∧
      ∀ o : Fin 20, m = p.start + o.val →
        let judged : BitVec 20 := match item with
          | .judgment _ => p.judged ||| BitVec.twoPow 20 o.val
          | _ => p.judged
        let stays : Prop := w.passed = none ∧ ∀ t, x.lastTick = some t → p.start + 20 ≤ t → judged.getLsbD 19 = false
        let sorted : State := { u with recorder := s.recorder.set i { x with span := some { p with judged := judged } } }
        (p.slot = none →
          w.sort ⟨m, item⟩ = { w with x := { x with span := some { p with judged := judged } } } ∧
          (stays → exec c s = .next sorted)) ∧
        ∀ n y, p.slot = some n → slotAt n s.store.slots = some y →
          let k := y.chunk
          let place (f : SampleFrame) (e : Option ChannelEntry) : Int := match e with
            | none => 0
            | some e => f.getD e.channel.val 0 / 256
          let left := x.record.channels.head?
          let right := match x.record.channels with
            | _ :: e :: _ => some e
            | _ => left
          let second (o : Nat) : Nat := if o < 10 then 0 else 1
          let chunk : Chunk := match item with
            | .frame f =>
              if k.first ≤ m ∧ k.audio[o].length < 4800 then
                { k with audio := k.audio.set o (k.audio[o] ++ [(place f left, place f right)]) }
              else k
            | .judgment (.present _) => k
            | .judgment .absent =>
              if k.first ≤ m then
                { k with audio := k.audio.set o [], absent := k.absent ||| BitVec.twoPow 20 o.val }
              else k
            | .packet q =>
              if q.stream ≠ x.record.captionStream.val then k
              else if k.packets.length < 512 then { k with packets := k.packets ++ [⟨o.val, q⟩] }
              else { k with overflow := k.overflow.set o (k.overflow[o] + 1) }
            | .proxy f =>
              if f.valid = true ∧ k.keep.getLsbD f.position = true ∧
                  (∀ e ∈ k.frames, ¬ (second e.offset = second o.val ∧ e.position = f.position)) ∧
                  k.frames.length < 50 then
                { k with frames := k.frames ++ [⟨o.val, f.position, f.bytes⟩] }
              else k
          let store : Store := { s.store with slots := putSlot n { y with chunk := chunk } s.store.slots }
          w.sort ⟨m, item⟩ =
            { w with x := { x with span := some { p with judged := judged } }, store := store } ∧
          (stays → exec c s = .next { sorted with store := store })

/-- R122 to R124, R126 to R130, R132, R134, R136, R137, R139: the end of a span at its boundary, and the next span. A gap is counted
and gets its GAP entry. A filling chunk is sealed with the next seal number, its payload length, its segment list and its flags,
and counted; with the seal counter exhausted it ends as a gap, its slot FREE and its entry removed. A boundary that has been
passed ends the span, has the backlog tested, opens the next span 20 MIs on in the slot that the store chooses, or as a gap, and
sorts the held input again; a change of the recording state is sent. Where none has been passed nothing happens: the command
SPAN_BOUNDARY does then what an arrival has done already (log entry 4, DEDUCED). At an MI tick every service that runs, and no
other (log entry 39, DESIGN CHOICE), records the tick and passes what boundaries it then can, the services in ascending number on the store they share: the model's choice (log
entry 24), since R123 leaves either order. The model's reading (log entry 14, DEDUCED): what of the on-air
list stays after a seal, and that the keep set is chosen before the fall of the backlog by an overwrite is tested. -/
def Obligations.SpansEndAtBoundariesAndTheNextOpen : Prop :=
  (∀ (w : Work) (a : Around) (p : Span),
     (p.slot = none →
       w.endSpan a p = { w with out := w.out ++ [increment .chunksNotRecorded a.svc, .appendGap a.svc p.start] }) ∧
     ∀ n y, p.slot = some n → slotAt n w.store.slots = some y → y.start = p.start →
       let k := y.chunk
       let e := p.start + 20
       let started := w.x.onAir.filter fun q => decide (q.start ≤ k.first)
       let ids : List (Option Nat) :=
         (match started.getLast? with
           | none => none
           | some q => q.id) ::
           (w.x.onAir.filter fun q => decide (k.first < q.start ∧ q.start < e)).map (·.id)
       let missing : Prop := ∃ j pos, j < 2 ∧ pos < 25 ∧ k.first < p.start + 10 * (j + 1) ∧
         k.keep.getLsbD pos = true ∧ ∀ f ∈ k.frames, ¬ ((if f.offset < 10 then 0 else 1) = j ∧ f.position = pos)
       (w.store.sealCount < 2 ^ 32 - 1 →
         ∃ fill : Bool, (fill = true ↔ w.x.record.proxyLane.isSome ∧ missing) ∧
         w.endSpan a p =
           { w with
             store :=
               { w.store with
                 sealCount := w.store.sealCount + 1
                 slots := putSlot n
                   { y with
                     state := .sealed, sealNo := some (w.store.sealCount + 1)
                     length := 4096 + 384000 + 12288 * k.frames.length + 48 * k.packets.length, cutShort := false
                     fillFrames := fill
                     chunk := { k with endMi := e, segments := ids.take 8, more := decide (8 < ids.length) } }
                   w.store.slots }
             x := { w.x with onAir := match (w.x.onAir.filter fun q => decide (q.start ≤ e)).getLast? with
               | none => []
               | some q => [q] }
             out := w.out ++ [increment .chunksSealed a.svc] }) ∧
       (2 ^ 32 - 1 ≤ w.store.sealCount → w.x.state = some .recording →
         w.endSpan a p =
           { x := { w.x with state := some .notRecording }
             store := { w.store with slots := dropSlot n w.store.slots }
             out := w.out ++
               [.removeEntry a.svc n p.start, increment .chunksNotRecorded a.svc, .appendGap a.svc p.start,
                 .recordingStateChanged a.svc .notRecording k.first (w.x.runInst.getD 0),
                 notice .recordingGap (some a.svc) (some k.first) (.priority w.x.record.priority.val)] })) ∧
  (∀ (w : Work) (a : Around) (b m run : Mi), w.x.runStart = some run →
     let keep := if w.store.backlog = .normal then KeepSet.normal else .reduced
     let slot : Slot :=
       { state := .filling, svc := a.svc, start := b, keepUsed := keep, sealNo := none
         holdCount := holdsOver a.holds a.svc b, length := 4096 + 384000, cutShort := false, fillFrames := false
         chunk :=
           { audio := Vector.replicate 20 [], frames := [], packets := [], overflow := Vector.replicate 20 0, absent := 0
             first := max b run, endMi := max b run, segments := [], more := false
             keep := if w.store.backlog = .normal then w.x.record.normalKeep else w.x.record.reducedKeep } }
     let filled (n : Nat) (ms : List Instr) : Work :=
       { x := { w.x with span := some ⟨b, some n, 0⟩ }
         store := { w.store with slots := putSlot n slot w.store.slots }
         out := w.out ++ ms ++ [Instr.appendStored a.svc n b] }
     let records (y : Work) : Work :=
       { y with
         x := { y.x with state := some .recording }
         out := y.out ++ (if w.x.state = some .notRecording then
           [.recordingStateChanged a.svc .recording m (w.x.runInst.getD 0)] else []) }
     (∀ n, w.store.choose w.x.record = .free n → w.openSpan a b m = records (filled n [])) ∧
     (∀ n old, w.store.choose w.x.record = .reuse n old →
       w.openSpan a b m = records (filled n [.removeEntry old.svc n old.start])) ∧
     (∀ n old, w.store.choose w.x.record = .overwrite n old →
       w.openSpan a b m = records ((filled n
         [.markLost old.svc n old.start, increment .unarchivedOverwrites old.svc,
           notice .unarchivedOverwrite (some old.svc) (some b) (.lostChunk n old.start)]).testBacklog a)) ∧
     (w.store.choose w.x.record = .none →
       w.openSpan a b m =
         { w with
           x := { w.x with span := some ⟨b, none, 0⟩, state := some .notRecording }
           out := w.out ++ (if w.x.state = some .notRecording then []
             else
               [.recordingStateChanged a.svc .notRecording m (w.x.runInst.getD 0),
                 notice .recordingGap (some a.svc) (some m) (.priority w.x.record.priority.val)]) })) ∧
  (∀ w : Work, w.sortHeld = w.x.held.foldl Work.sort { w with x := { w.x with held := [] } }) ∧
  (∀ (s : State) (i : Svc) (w : Work),
    let a := s.around i
    s.work i = ⟨s.recorder[i], s.store, []⟩ ∧ a = ⟨i, s.holds, s.station.time⟩ ∧
    s.worked i w = { s with recorder := s.recorder.set i w.x, store := w.store, inFlight := s.inFlight ++ w.out } ∧
    s.worked i (w.testBacklog a) = (s.worked i w).testBacklog) ∧
  (∀ (s : State) (i : Svc),
    let w := s.work i
    let a := s.around i
    (∀ p, w.passed = some p ↔ s.recorder[i].run = .active ∧ s.recorder[i].span = some p ∧ p.judged.getLsbD 19 = true ∧
      ∃ t, s.recorder[i].lastTick = some t ∧ p.start + 20 ≤ t) ∧
    (w.passed = none → exec (.spanBoundary i) s = .next s) ∧
    ∀ p, w.passed = some p →
      let b := p.start + 20
      exec (.spanBoundary i) s = .next (s.worked i ((((w.endSpan a p).testBacklog a).openSpan a b b).sortHeld)) ∧
      ∃ v q, exec (.spanBoundary i) s = .next v ∧ v.recorder[i].span = some q ∧ q.start = b ∧
        v.recorder[i].state = some (if q.slot = none then .notRecording else .recording)) ∧
  ∀ (s : State) (t : Mi),
    let ticked (u : State) (i : Svc) : Work :=
      if s.recorder[i].run = .idle then u.work i else ⟨{ s.recorder[i] with lastTick := some t }, u.store, []⟩
    ∃ v, exec (.recorderMiTick t) s = .next v ∧
      v = (List.finRange 16).foldl (fun u i => u.worked i ((ticked u i).settle (s.around i))) (s.arrive (.recorderMiTick t)) ∧
      v = { s with recorder := v.recorder, store := v.store, inFlight := v.inFlight } ∧
      ∀ i : Svc, (v.work i).passed = none ∧
        (s.recorder[i].run = .idle → v.recorder[i] = s.recorder[i]) ∧
        (s.recorder[i].run ≠ .idle → v.recorder[i].lastTick = some t ∧ v.recorder[i].run = s.recorder[i].run)

/-- R121, R122, R123, R137, R145, R153, R155, R158 are kept by every step: the chunk table, the spans of the recorder and the takes of the
archive queue agree, and at most eight takes are in flight; the hold count of every slot that is not FREE is the number of live
holds that cover it; the clip lists rise in chunk start, and the pool holds their GAP and LOST entries, each once, in at most 2048
places. -/
def Obligations.EveryStepKeepsStoreHoldsAndClips : Prop :=
  (∀ s t : State, s.GoodStore → step s = .next t → t.GoodStore) ∧
  (∀ s t : State, s.GoodHoldCounts → step s = .next t → t.GoodHoldCounts) ∧
  ∀ s t : State, s.clips.Good → step s = .next t → t.clips.Good

/-! ### Chapter 8: holds and the clip index -/

/-- R144 to R147, R149, R150: CREATE HOLD and an automatic hold request. Each takes the lowest free entry and adds one to the hold count
of every slot whose chunk its span overlaps; with none free the first is answered FULL and the second "unavailable", with
HOLD_TABLE_FULL. RELEASE HOLD frees an entry that is not fixed, with its counts lowered, and FIX HOLD fixes one. -/
def Obligations.HoldsAreCreatedReleasedAndFixed : Prop :=
  (∀ (s : State) (rq : Req) (i : Svc) (a b : Mi) (seq : Nat),
     let c := Instr.createHold rq i.val a b
     let d := Instr.automaticHoldRequest i a b seq
     let isCovered (x : Slot) : Bool := decide (x.svc = i ∧ a < x.start + 20 ∧ x.start < b)
     let created (u : State) (n : Fin 32) (origin : HoldOrigin) : State :=
       { u with
         holds := s.holds.set n (some ⟨i, a, b, origin, false⟩)
         store :=
           { s.store with
             slots := s.store.slots.map fun e : Nat × Slot =>
               if isCovered e.2 = true then (e.1, { e.2 with holdCount := e.2.holdCount + 1 }) else e } }
     (b ≤ a → exec c s = .next ((s.arrive c).respond rq .badArgument .nothing)) ∧
     (∀ n : Nat, 16 ≤ n →
       exec (.createHold rq n a b) s = .next ((s.arrive (.createHold rq n a b)).respond rq .badArgument .nothing)) ∧
     ((∀ k : Fin 32, s.holds[k] ≠ none) →
       (a < b → exec c s = .next ((s.arrive c).respond rq .full .nothing)) ∧
       exec d s =
         .next ((s.arrive d).send
           [notice .holdTableFull (some i) s.station.time (.sequence seq), .holdAnswer none])) ∧
     ∀ n : Fin 32, s.holds[n] = none → (∀ k : Fin 32, k < n → s.holds[k] ≠ none) →
       (a < b →
         exec c s =
           .next ((created (s.arrive c) n .console).respond rq .ok
             (.holdCreated n (s.store.slots.filter fun e : Nat × Slot => isCovered e.2).length))) ∧
       exec d s = .next ((created (s.arrive d) n (.automatic seq)).send [.holdAnswer (some n)])) ∧
  ∀ (s : State) (rq : Req) (n : Nat),
    let c := Instr.releaseHold rq n
    let d := Instr.fixHold rq n
    (32 ≤ n →
      exec c s = .next ((s.arrive c).respond rq .badArgument .nothing) ∧
      exec d s = .next ((s.arrive d).respond rq .badArgument .nothing)) ∧
    ∀ k : Fin 32, n = k.val →
      (s.holds[k] = none →
        exec c s = .next ((s.arrive c).respond rq .notFound .nothing) ∧
        exec d s = .next ((s.arrive d).respond rq .notFound .nothing)) ∧
      ∀ h, s.holds[k] = some h →
        let isCovered (x : Slot) : Bool := decide (x.svc = h.svc ∧ h.fromMi < x.start + 20 ∧ x.start < h.toMi)
        (h.fixed = true → exec c s = .next ((s.arrive c).respond rq .fixed .nothing)) ∧
        (h.fixed = false →
          exec c s =
            .next ({ s.arrive c with
              holds := s.holds.set k none
              store :=
                { s.store with
                  slots := s.store.slots.map fun e : Nat × Slot =>
                    if isCovered e.2 = true then (e.1, { e.2 with holdCount := e.2.holdCount - 1 }) else e } }.respond rq .ok
                (.holdReleased (s.store.slots.filter fun e : Nat × Slot => isCovered e.2).length))) ∧
        exec d s =
          .next ({ s.arrive d with holds := s.holds.set k (some { h with fixed := true }) }.respond rq .ok .nothing)

/-- R153 to R155: the four messages to the clip index, in an index that is in order. Appending puts an entry at its place, in the place of
one already at that start; a GAP or LOST entry joins the tail of the pool, whose oldest entry leaves its list when the pool is
full; removing and marking LOST act on the STORED entry named, if it is there. Other lists are changed only by such a drop. That a GAP
or LOST entry which is replaced leaves the pool before the pool is tested for room is the model's choice (log entry 31). -/
def Obligations.ClipIndexMessages : Prop :=
  ∀ (s : State) (i : Svc) (n : Nat) (m : Mi), s.clips.Good →
    let x := s.clips
    let left := x.pool.filter fun q => decide (q ≠ (i, m))
    let dropped (pool : List (Svc × Mi)) (k : Svc) (e : ClipEntry) : Prop :=
      2048 ≤ pool.length ∧ pool.head? = some (k, e.start)
    let room (pool : List (Svc × Mi)) : List (Svc × Mi) := if 2048 ≤ pool.length then pool.tail else pool
    let becomes (c : Instr) (pool : List (Svc × Mi)) (mem : Svc → ClipEntry → Prop) : Prop :=
      ∃ y : ClipIndex, exec c s = .next { s.arrive c with clips := y } ∧ y.pool = pool ∧
        (∀ k : Svc, ∀ e, e ∈ y.lists[k] ↔ mem k e) ∧ ∀ k : Svc, (y.lists[k]).Pairwise fun a b => a.start < b.start
    becomes (.appendStored i n m) left
      (fun k e => (k = i ∧ e = ⟨m, .stored n⟩) ∨ (e ∈ x.lists[k] ∧ ¬ (k = i ∧ e.start = m))) ∧
    becomes (.appendGap i m) (room left ++ [(i, m)])
      (fun k e => (k = i ∧ e = ⟨m, .gap⟩) ∨ (e ∈ x.lists[k] ∧ ¬ (k = i ∧ e.start = m) ∧ ¬ dropped left k e)) ∧
    becomes (.removeEntry i n m) x.pool
      (fun k e => e ∈ x.lists[k] ∧ ¬ (k = i ∧ e = ⟨m, .stored n⟩)) ∧
    ((⟨m, .stored n⟩ : ClipEntry) ∈ x.lists[i] →
      becomes (.markLost i n m) (room x.pool ++ [(i, m)])
        (fun k e => (k = i ∧ e = ⟨m, .lost⟩) ∨ (e ∈ x.lists[k] ∧ ¬ (k = i ∧ e.start = m) ∧ ¬ dropped x.pool k e))) ∧
    ((⟨m, .stored n⟩ : ClipEntry) ∉ x.lists[i] → exec (.markLost i n m) s = .next (s.arrive (.markLost i n m)))

/-! ### Chapter 9: archive transfer -/

/-- R157 to R159, R161 to R163: TAKE hands out the SEALED slot with the lowest seal number under a new token and timer; with eight
takes in flight it is answered FULL, and with no slot SEALED, EMPTY. READ CHUNK, CONFIRM and RETURN act on the take of the slot
they name, under its token; without that take they are answered TOO_LATE, but for a CONFIRM that repeats the confirming token of
an ARCHIVED slot. The timer duration may be the marker DEFAULT, which loads 1200; that NONE and a marker byte above 02 are refused
with BAD_ARGUMENT (log entry 16, DEDUCED), and before the takes in flight and the queue are looked at (log entry 33), is the
model's reading. -/
def Obligations.TakesAreHandedOutReadAndEnded : Prop :=
  (∀ (s : State) (rq : Req) (arg : Arg Nat),
     arg = .absent ∨ arg = .badMarker →
     exec (.take rq arg) s = .next ((s.arrive (.take rq arg)).respond rq .badArgument .nothing)) ∧
  (∀ (s : State) (rq : Req) (arg : Arg Nat) (d : Nat),
     arg = .value d ∨ (arg = .dflt ∧ d = 1200) →
     let c := Instr.take rq arg
     let u := s.arrive c
     let x := s.store
     let inTransfer := (x.slots.filter fun e => decide (e.2.state = .inTransfer)).length
     let duration := max 10 (min 36000 d)
     let token := (s.archive.tokenCounter + 1) % 65536
     (8 ≤ inTransfer → exec c s = .next (u.respond rq .full .nothing)) ∧
     (inTransfer < 8 → (∀ e ∈ x.slots, e.2.state ≠ .sealed) → exec c s = .next (u.respond rq .empty .nothing)) ∧
     ∀ n y k, inTransfer < 8 → x.GoodTable → (n, y) ∈ x.slots → y.state = .sealed → y.sealNo = some k →
       (∀ e ∈ x.slots, e.2.state = .sealed → e ≠ (n, y) → k < e.2.sealNo.getD 0) →
       exec c s =
         .next ({ u with
           archive :=
             Archive.mk (s.archive.takes ++ [Take.mk n token s.station.time duration duration]) token
           store := { x with slots := putSlot n { y with state := .inTransfer } x.slots } }.testBacklog.respond rq
             (if duration = d then .ok else .clamped)
             (.take ⟨n, token, some k, y.svc, y.start, y.length, y.cutShort, y.fillFrames, y.holdCount, duration⟩))) ∧
  ∀ (s : State) (rq : Req) (n token offset length : Nat),
    let cr := Instr.readChunk rq n token offset length
    let cc := Instr.confirm rq n token
    let ct := Instr.returnTake rq n token
    let ended (u : State) (y : Slot) (state : SlotState) : State :=
      { u with
        archive := { s.archive with takes := s.archive.takes.filter fun t => decide (t.slot ≠ n) }
        store := { s.store with slots := putSlot n { y with state := state } s.store.slots } }
    let bad (c : Instr) : Prop := exec c s = .next ((s.arrive c).respond rq .badArgument .nothing)
    let late (c : Instr) : Prop := exec c s = .next ((s.arrive c).respond rq .tooLate .nothing)
    (s.store.slotCount ≤ n → bad cr ∧ bad cc ∧ bad ct) ∧
    (length = 0 ∨ 4096 < length → bad cr) ∧
    (n < s.store.slotCount →
      (∀ t y, (s.archive.takes.find? fun t => decide (t.slot = n)) = some t → t.token = token →
        slotAt n s.store.slots = some y → y.state = .inTransfer →
        (1 ≤ length → length ≤ 4096 →
          exec cr s = .next ((s.arrive cr).respond rq .ok
            (.chunk y.sealNo y.length t.remaining (((chunkPayload y).take y.length).drop offset |>.take length)))) ∧
        exec cc s = .next ((ended (s.arrive cc) y (.archived token)).respond rq .ok (.repeated false)) ∧
        exec ct s = .next ((ended (s.arrive ct) y .sealed).testBacklog.respond rq .ok .nothing)) ∧
      (∀ y, slotAt n s.store.slots = some y → y.state = .archived token →
        exec cc s = .next ((s.arrive cc).respond rq .ok (.repeated true))) ∧
      ((∀ t ∈ s.archive.takes, ¬ (t.slot = n ∧ t.token = token)) →
        (1 ≤ length → length ≤ 4096 → late cr) ∧ late ct ∧
        ((∀ y, slotAt n s.store.slots = some y → y.state ≠ .archived token) → late cc)))

/-- R164, R136: a period edge at the archive queue counts every timer down by one. The takes whose timer reaches 0 end, oldest first:
each slot is SEALED again, ARCHIVE_TIMEOUTS is counted and ARCHIVE_TIMEOUT raised for it, and the backlog, one higher, is tested;
the other takes and slots stay. So each take that expires gives its own two messages, in their order, with BACKLOG_HIGH behind
those of the take that brings a NORMAL backlog to the threshold. (That they are taken oldest first is the model's choice, log entry
24; a TAKE between the issue of an edge and its arrival has that edge counted, log entry 32.) The command TAKE_TIMER_EXPIRY acts on
a timer that stands at 0 and has no effect otherwise, since the edge that brings it to 0 makes the expiry itself: the model's
reading of that row (log entry 4, DEDUCED). -/
def Obligations.TakeTimersCountPeriodEdges : Prop :=
  ∀ s : State, s.store.GoodTable → s.GoodTakes →
    let messages (begun : Option Mi) (t : Take) (y : Slot) : List Instr :=
      [.counterIncrement .archiveTimeouts, notice .archiveTimeout (some y.svc) begun (.take t.slot t.token)]
    let expire (begun : Option Mi) (u : State) (t : Take) : State :=
      match slotAt t.slot u.store.slots with
      | none => u
      | some y =>
        ({ u with
          archive := { u.archive with takes := u.archive.takes.filter fun q => decide (q.slot ≠ t.slot) }
          store := { u.store with slots := putSlot t.slot { y with state := .sealed } u.store.slots } }.send
            (messages begun t y)).testBacklog
    (∀ begun : Option Mi,
      let c := Instr.archivePeriodEdge begun
      let counted := s.archive.takes.map fun t : Take => { t with remaining := t.remaining - 1 }
      let expired := counted.filter fun t => decide (t.remaining = 0)
      let each (t : Take) : List Instr := match slotAt t.slot s.store.slots with
        | none => []
        | some y => messages begun t y
      let backlog := (s.store.slots.filter fun e => decide (e.2.state = .sealed)).length
      let threshold := s.store.threshold
      ∃ v, exec c s = .next v ∧
        v = expired.foldl (expire begun) { s.arrive c with archive := { s.archive with takes := counted } } ∧
        v.archive.tokenCounter = s.archive.tokenCounter ∧
        v.archive.takes = counted.filter (fun t => decide (t.remaining ≠ 0)) ∧
        (∀ n y, slotAt n s.store.slots = some y →
          slotAt n v.store.slots =
            some (if ∃ t ∈ s.archive.takes, t.slot = n ∧ t.remaining ≤ 1 then { y with state := .sealed } else y)) ∧
        (∀ n, slotAt n s.store.slots = none → slotAt n v.store.slots = none) ∧
        (s.store.backlog = .normal ∧ backlog + expired.length < threshold ∨
          s.store.backlog = .high ∧ threshold - 256 < backlog →
          v.inFlight = s.inFlight.erase c ++ expired.flatMap each) ∧
        (∀ k, s.store.backlog = .normal → backlog + k = threshold → 1 ≤ k → k ≤ expired.length →
          v.inFlight = s.inFlight.erase c ++ (expired.take k).flatMap each
            ++ [notice .backlogHigh none s.station.time (.backlog threshold threshold)]
            ++ (expired.drop k).flatMap each) ∧
        v = { s with archive := v.archive, store := v.store, inFlight := v.inFlight }) ∧
    ∀ n, ((∀ t ∈ s.archive.takes, t.slot = n → t.remaining ≠ 0) → exec (.takeTimerExpiry n) s = .next s) ∧
      ∀ t y, t ∈ s.archive.takes → t.slot = n → t.remaining = 0 → slotAt n s.store.slots = some y →
        exec (.takeTimerExpiry n) s =
          .next (({ s with
            archive := { s.archive with takes := s.archive.takes.filter fun t => decide (t.slot ≠ n) }
            store := { s.store with slots := putSlot n { y with state := .sealed } s.store.slots } }.send
              [.counterIncrement .archiveTimeouts,
                notice .archiveTimeout (some y.svc) s.station.time (.take n t.token)]).testBacklog)

/-! ### Chapter 10: link ports and requests -/

/-- R170, R171, R173, R178: alignment, the symbols of a frame, its end, and the two losses of a link. A port that is aligned in
LINK_DOWN enters LINK_UP with its queue empty. A frame that is broken off, too long or fails a check is counted; the request of a
good one joins the queue, or is answered BUSY when four are queued. A link that is lost discards the requests not in service; the
request in service is passed to its block first when it has not been yet and passes its checks. The model's reading (log entry
17, DEDUCED): in LINK_DOWN a symbol of a frame has no effect, and neither has END with no frame in reception; the request in
service stays at the head of the queue, under the number of its pass, until its response or the return of the link; a WARM RESET
that is so passed reads the straps as `reading` gives them for that pass (log entry 3). That a START symbol behind a frame discarded
for its length begins a frame at once is the model's choice (log entry 36). -/
def Obligations.PortsReceiveFramesAndLoseLinks : Prop :=
  ∀ (s : State) (p : PortNo) (b : Byte),
    let x := s.ports[p]
    let port (y : Port) : State := { s with ports := s.ports.set p y }
    let discarded (y : Port) : State := (port y).send [.counterIncrement (.framesDiscarded p)]
    (x.link = .up → exec (.linkAlignment p) s = .next s) ∧
    (x.link = .down →
      exec (.linkAlignment p) s = .next (port { x with link := .up, queue := [], serving := none }) ∧
      exec (.startSymbol p) s = .next s ∧ exec (.dataSymbol p b) s = .next s ∧ exec (.frameReceived p) s = .next s ∧
      exec (.linkDown p) s = .next s ∧ exec (.linkSilenceTimeout p) s = .next s) ∧
    (x.link = .up →
      (x.rx = none →
        exec (.startSymbol p) s = .next (port { x with rx := some [] }) ∧ exec (.dataSymbol p b) s = .next s ∧
        exec (.frameReceived p) s = .next s) ∧
      (∀ l, x.rx = some l →
        exec (.startSymbol p) s = .next (discarded { x with rx := some [] }) ∧
        (l.length < 4102 → exec (.dataSymbol p b) s = .next (port { x with rx := some (l ++ [b]) })) ∧
        (4102 ≤ l.length → exec (.dataSymbol p b) s = .next (discarded { x with rx := none })) ∧
        (parseFrame l = none → exec (.frameReceived p) s = .next (discarded { x with rx := none })) ∧
        ∀ q, parseFrame l = some q →
          (4 ≤ x.queue.length →
            exec (.frameReceived p) s = .next (port { x with rx := none, out := x.out ++ [⟨q.tag, .busy, .nothing⟩] })) ∧
          (x.queue.length < 4 →
            exec (.frameReceived p) s = .next ((port { x with rx := none, queue := x.queue ++ [q] }).send
              (if x.queue = [] then [.requestService p] else [])))) ∧
      ∀ c, c = .linkDown p ∨ c = .linkSilenceTimeout p →
        (x.serving.isSome ∨ x.queue = [] →
          exec c s = .next (port { x with
            link := .down, rx := none, queue := if x.serving.isSome then x.queue.take 1 else [] })) ∧
        ∀ q qs, x.serving = none → x.queue = q :: qs →
          let k := x.passes + 1
          (∀ d, checkRequest x.role ⟨p, q.tag, some k⟩ (reading p k) q = .ok d →
            exec c s = .next ((port { x with
              link := .down, rx := none, queue := [q], serving := some k, passes := k }).send [d])) ∧
          ∀ st, checkRequest x.role ⟨p, q.tag, some k⟩ (reading p k) q = .error st →
            exec c s = .next (port { x with link := .down, rx := none, queue := [] }))

/-- R173, R174, R176: the request at the head of a queue enters service. Its checks are made in order: the code, the role, the length;
the first that fails answers it (in LINK_UP: R170). When all pass it is handed to its block under a new pass (log entry 17). The
catalogue lists 38 codes with the roles permitted and the length of their payload, where that of CONFIGURE SERVICE depends on the
count in its fifth byte (that each of its sixteen fields has a marker byte is the model's choice, log entry 34). Every code has its
command, whose arguments are read from the payload in the order and the sizes of 10.8.1, most significant byte first: a field that
may be DEFAULT or NONE behind its marker byte, and not looked at behind another marker than 00 (log entry 35, DESIGN CHOICE); a
level code behind 00 is the number, 8000 hex too (log entry 38, DEDUCED). OBSERVER may issue only the reads of services, meter, survey, log, notices, holds, counters and status. -/
def Obligations.RequestsEnterServiceAfterChecks : Prop :=
  (∀ (s : State) (p : PortNo),
    let c := Instr.requestService p
    let u := s.arrive c
    let x := s.ports[p]
    (x.serving.isSome ∨ x.queue = [] → exec c s = .next u) ∧
    ∀ q qs, x.serving = none → x.queue = q :: qs →
      let k := x.passes + 1
      let rq : Req := ⟨p, q.tag, some k⟩
      let code := q.code.toNat
      let answered (st : Status) : State :=
        { u with
          ports := s.ports.set p { x with
            queue := qs
            out := match x.link with
              | .up => x.out ++ [Response.mk q.tag st .nothing]
              | .down => x.out } }.send (if qs = [] then [] else [.requestService p])
      (catalogueRow code = none → exec c s = .next (answered .badArgument)) ∧
      ∀ row, catalogueRow code = some row →
        (row.permits x.role = false → exec c s = .next (answered .notPermitted)) ∧
        (row.permits x.role = true → q.payload.length ≠ payloadBytes code q.payload →
          exec c s = .next (answered .badArgument)) ∧
        (row.permits x.role = true → q.payload.length = payloadBytes code q.payload →
          ∃ d, commandOf rq (reading p k) code q.payload = some d ∧
            exec c s = .next ({ u with
              ports := s.ports.set p { x with serving := some k, passes := k } }.send [d]))) ∧
  (let all : List Role := [.playout, .console, .archive, .observer]
   let rows : List (Nat × List Role × Nat) :=
     [(0x01, [.playout], 16), (0x02, [.playout], 16), (0x03, [.playout], 5), (0x04, [.playout], 5),
       (0x05, [.playout, .console, .observer], 1), (0x11, [.console], 3), (0x12, [.console], 4), (0x13, [.console], 20),
       (0x14, [.console], 31), (0x15, [.console], 6), (0x16, [.console], 2), (0x17, [.console], 2), (0x18, [.console], 1),
       (0x19, [.console], 1), (0x1A, [.console], 2), (0x1B, [.console], 1), (0x1C, [.console], 6), (0x1D, [.console], 11),
       (0x1E, [.console], 1), (0x1F, [.console], 1), (0x20, [.console], 14)]
     ++ [(0x21, [.console], 1), (0x22, [.console], 1), (0x23, [.console], 0), (0x30, [.archive], 5), (0x31, [.archive], 10),
       (0x32, [.archive], 4), (0x33, [.archive], 4), (0x34, [.archive], 0), (0x40, all, 1), (0x41, all, 0), (0x42, all, 1),
       (0x43, all, 1), (0x44, [.playout, .console, .observer], 6), (0x45, [.console, .archive], 6), (0x46, all, 0),
       (0x47, all, 1)]
   (∀ e ∈ rows, ∃ row, catalogueRow e.1 = some row ∧ (∀ r : Role, row.permits r = true ↔ r ∈ e.2.1) ∧
     ∀ l, payloadBytes e.1 l = e.2.2) ∧
   (∃ row, catalogueRow 0x10 = some row ∧ (∀ r : Role, row.permits r = true ↔ r = .console) ∧
     ∀ l : List Byte, payloadBytes 0x10 l = 50 + 2 * (l.getD 4 0).toNat) ∧
   ∀ code, code ≠ 0x10 → (∀ e ∈ rows, e.1 ≠ code) → catalogueRow code = none) ∧
  (∀ (role : Role) (rq : Req) (straps : Straps) (q : Request),
    let code := q.code.toNat
    let verdict := checkRequest role rq straps q
    (catalogueRow code = none → verdict = .error .badArgument) ∧
    ∀ row, catalogueRow code = some row →
      (row.permits role = false → verdict = .error .notPermitted) ∧
      (row.permits role = true → q.payload.length ≠ payloadBytes code q.payload → verdict = .error .badArgument) ∧
      (row.permits role = true → q.payload.length = payloadBytes code q.payload →
        ∃ d, commandOf rq straps code q.payload = some d ∧ verdict = .ok d)) ∧
  (∀ (rq : Req) (straps : Straps) (l : List Byte),
    let num (off size : Nat) : Nat := ((l.drop off).take size).foldl (fun n b => 256 * n + b.toNat) 0
    let level (off : Nat) : Int := if num off 2 < 2 ^ 15 then num off 2 else num off 2 - 2 ^ 16
    let behind (α : Type) (off : Nat) (v : α) : Arg α :=
      if num off 1 = 0 then .value v else if num off 1 = 1 then .dflt else if num off 1 = 2 then .absent else .badMarker
    let opt (off size : Nat) : Arg Nat := behind Nat off (num (off + 1) size)
    let optLevel (off : Nat) : Arg Int := behind Int off (level (off + 1))
    let desc : DescArgs := { id := num 1 4, start := num 5 5, cls := num 10 1, profile := num 11 1, planned := num 12 4 }
    let entries := num 4 1
    let d := 5 + 2 * entries
    let service : ServiceArgs :=
      { audioLane := opt 1 1
        channels := behind (List (Nat × Nat)) 3 ((List.range entries).map fun k => (num (5 + 2 * k) 1, num (6 + 2 * k) 1))
        captionLane := opt d 1, captionStream := opt (d + 2) 1, rowMask := opt (d + 4) 2, speechFloor := optLevel (d + 7)
        streamTimeout := opt (d + 10) 4, proxyLane := opt (d + 15) 1, normalKeep := opt (d + 17) 4
        reducedKeep := opt (d + 22) 4, recording := opt (d + 27) 1, priority := opt (d + 29) 1
        overwrite := opt (d + 31) 1, profile := opt (d + 33) 1, unschedPlanned := opt (d + 35) 4
        holdGuard := opt (d + 40) 4 }
    let profile : ProfileArgs :=
      { target := optLevel 1, tolerance := opt 4 2, shortTerm := optLevel 7, peak := optLevel 10, relative := opt 13 2
        captions := opt 16 1, minCoverage := opt 18 2, maxGap := opt 21 4, overrun := opt 26 4 }
    let gives (code : Nat) (c : Instr) : Prop := commandOf rq straps code l = some c
    gives 0x01 (.stage rq (num 0 1) desc) ∧ gives 0x02 (.groupStage rq (num 0 1) desc) ∧
    gives 0x03 (.withdraw rq (num 0 1) (num 1 4)) ∧ gives 0x04 (.setTime rq (num 0 5)) ∧
    gives 0x05 (.readSchedule rq (num 0 1)) ∧ gives 0x10 (.configureService rq (num 0 1) service) ∧
    gives 0x11 (.configureGroup rq (num 0 1) (num 1 2)) ∧ gives 0x12 (.configureStore rq (num 0 4)) ∧
    gives 0x13 (.setReserves rq { reserve0 := opt 0 4, reserve1 := opt 5 4, reserve2 := opt 10 4, threshold := opt 15 4 }) ∧
    gives 0x14 (.writeProfile rq (num 0 1) profile) ∧
    gives 0x15 (.setRoute rq (num 0 1)
      { enable := num 1 1, kind := num 2 1, value := num 3 1, mask := num 4 1, port := num 5 1 }) ∧
    gives 0x16 (.setAttentionMode rq (num 0 1) (num 1 1)) ∧ gives 0x17 (.setAlertMask rq (num 0 2)) ∧
    gives 0x18 (.startService rq (num 0 1)) ∧ gives 0x19 (.stopService rq (num 0 1)) ∧
    gives 0x1A (.startSurvey rq (num 0 1) (num 1 1)) ∧ gives 0x1B (.stopSurvey rq (num 0 1)) ∧
    gives 0x1C (.collect rq (num 0 6)) ∧ gives 0x1D (.createHold rq (num 0 1) (num 1 5) (num 6 5)) ∧
    gives 0x1E (.releaseHold rq (num 0 1)) ∧ gives 0x1F (.fixHold rq (num 0 1)) ∧
    gives 0x20 (.readChunkReview rq (num 0 2) (num 2 1) (num 3 5) (num 8 4) (num 12 2)) ∧
    gives 0x21 (.clearCounters rq (num 0 1)) ∧ gives 0x22 (.clearAlerts rq (num 0 1)) ∧
    gives 0x23 (.warmReset rq straps) ∧ gives 0x30 (.take rq (opt 0 4)) ∧
    gives 0x31 (.readChunk rq (num 0 2) (num 2 2) (num 4 4) (num 8 2)) ∧
    gives 0x32 (.confirm rq (num 0 2) (num 2 2)) ∧ gives 0x33 (.returnTake rq (num 0 2) (num 2 2)) ∧
    gives 0x34 (.readArchiveStatus rq) ∧ gives 0x40 (.readStatus rq (num 0 1)) ∧ gives 0x41 (.readNotice rq) ∧
    gives 0x42 (.readMeter rq (num 0 1)) ∧ gives 0x43 (.readSurvey rq (num 0 1)) ∧ gives 0x44 (.readLog rq (num 0 6)) ∧
    gives 0x45 (.findClip rq (num 0 1) (num 1 5)) ∧ gives 0x46 (.readHolds rq) ∧
    gives 0x47 (.readCounters rq (num 0 1))) ∧
  ∀ code row, catalogueRow code = some row → row.permits .observer = true →
    ∀ rq straps l d, commandOf rq straps code l = some d →
      (∃ n, d = .readSchedule rq n) ∨ (∃ n, d = .readStatus rq n) ∨ d = .readNotice rq ∨ (∃ n, d = .readMeter rq n) ∨
      (∃ n, d = .readSurvey rq n) ∨ (∃ n, d = .readLog rq n) ∨ d = .readHolds rq ∨ ∃ n, d = .readCounters rq n

/-- R172: the CRC of a frame, bit by bit: the register starts at FFFF hex, each byte enters most significant bit first, and the
generator is 1021 hex. It is sent most significant byte first; a receiver that runs over the frame, CRC bytes included, ends
with 0; the nine digits give 29B1 hex; and every response frame carries it. -/
def Obligations.CrcRunsBitByBit : Prop :=
  let bit (r : BitVec 16) (d : Bool) : BitVec 16 := (r <<< 1) ^^^ (if r.msb = d then 0 else 0x1021#16)
  let bits (b : Byte) : List Bool := [7, 6, 5, 4, 3, 2, 1, 0].map b.getLsbD
  (∀ l : List Byte, crcOf l = (l.flatMap bits).foldl bit 0xFFFF#16) ∧
  (∀ l : List Byte, withCrc l = l ++ [(crcOf l).extractLsb' 8 8, (crcOf l).extractLsb' 0 8]) ∧
  (∀ l : List Byte, crcOf (withCrc l) = 0) ∧
  crcOf [0x31, 0x32, 0x33, 0x34, 0x35, 0x36, 0x37, 0x38, 0x39] = 0x29B1#16 ∧
  ∀ r : Response, ∃ l, responseFrame r = withCrc l

/-- R171, R172: a request frame and its parts. The bytes in reception are taken as a request exactly when they are its tag, its code,
the length of its payload in two bytes, a payload of at most 4096 bytes, and the CRC of all that. -/
def Obligations.FramesAndRequestsAgree : Prop :=
  ∀ (l : List Byte) (q : Request),
    parseFrame l = some q ↔
      q.payload.length ≤ 4096 ∧
      l = withCrc ([q.tag, q.code, BitVec.ofNat 8 (q.payload.length / 256), BitVec.ofNat 8 q.payload.length] ++ q.payload)

/-- Sections 10.8.1 and 10.8.3 to 10.8.5: a compliance record takes 100 bytes, a notice record takes 24, and the payload of a chunk
within its bounds takes the length that R137 gives it; and every field lies at the offset and in the size that the tables give,
most significant byte first, with the codes of the enumerations: `num l off size` is the number that `size` bytes of `l` from `off`
spell, and a number too large for its field shows what its low bytes hold. An absent segment id is five bytes 0, a level code
reads NONE as 8000 hex and NOT_MEASURED as 8001 hex, an UNSET MI has the marker 01. The detail of a notice begins at 8 and its
unused bytes are 0, as are the unused entries of the segment and frame lists and the rest of the header. The samples of an MI area
alternate left and right and are zero beyond those stored; the frames and the caption packet entries follow. A response frame is
its tag, the status byte of R180, the length of its payload in two bytes, the payload, and the CRC of all that; the payloads whose
every field has its size are spelled, and the others are free (log entry 8). That the late and the repeated mark are a byte 00
where there is nothing to mark is the model's choice (log entry 28). -/
def Obligations.LayoutsHaveTheirLengths : Prop :=
  let num (l : List Byte) (off size : Nat) : Nat := ((l.drop off).take size).foldl (fun n b => 256 * n + b.toNat) 0
  let signed (c : Int) : Nat := (c % 2 ^ 16).toNat
  let code (none : Nat) (c : Option Int) : Nat := (c.map signed).getD none
  let bit (b : Bool) (n : Nat) : Nat := if b then n else 0
  let result (c : CheckResult) : Nat := match c with
    | .pass => 0
    | .fail => 1
    | .notMeasured => 2
    | .notApplicable => 3
  let hasId (l : List Byte) (off : Nat) (id : Option Nat) : Prop :=
    num l off 1 = bit id.isSome 1 ∧ num l (off + 1) 4 = id.getD 0 % 2 ^ 32
  (∀ r : Record,
    let l := recordBytes r
    l.length = 100 ∧ (r.seq < 2 ^ 48 → ofBe (l.take 6) = r.seq) ∧
    num l 0 6 = r.seq % 2 ^ 48 ∧ num l 6 1 = r.svc.val ∧
    num l 7 1 = (match r.cls with
      | .programme => 0
      | .advert => 1
      | .promotion => 2
      | .junction => 3
      | .unscheduled => 4) ∧
    num l 8 1 = r.profile.val ∧
    num l 9 1 = (match r.cause with
      | .next => 0
      | .overrun => 1
      | .rollover => 2
      | .stop => 3
      | .reset => 4
      | .skipped => 5) ∧
    num l 10 1 = bit r.late 1 + bit r.referenceLost 2 + bit r.incomplete 4 ∧ hasId l 11 r.id ∧
    num l 16 5 = r.stagedStart % 2 ^ 40 ∧ num l 21 5 = r.actualStart % 2 ^ 40 ∧ num l 26 5 = r.endMi % 2 ^ 40 ∧
    num l 31 1 = (match r.hold with
      | .hold n => n.val
      | .unavailable => 0xFE
      | .none => 0xFF) ∧
    num l 32 4 = r.positions % 2 ^ 32 ∧ num l 36 4 = r.binned % 2 ^ 32 ∧ num l 40 4 = r.belowGate % 2 ^ 32 ∧
    num l 44 4 = r.excluded % 2 ^ 32 ∧ num l 48 4 = r.overRange % 2 ^ 32 ∧
    num l 52 2 = code 0x8001 r.integrated ∧ num l 54 2 = code 0x8000 r.maxMomentary ∧
    num l 56 2 = code 0x8000 r.maxShortTerm ∧ num l 58 2 = code 0x8001 r.peak ∧
    num l 60 2 = code 0x8000 (r.refUsed.map (·.code)) ∧ num l 62 6 = ((r.refUsed.map (·.seq)).getD 0) % 2 ^ 48 ∧
    num l 68 4 = r.judged % 2 ^ 32 ∧ num l 72 4 = r.audible % 2 ^ 32 ∧ num l 76 4 = r.covered % 2 ^ 32 ∧
    num l 80 4 = r.gapCount % 2 ^ 32 ∧ num l 84 4 = r.longestGap % 2 ^ 32 ∧ num l 88 4 = r.streamLost % 2 ^ 32 ∧
    num l 92 1 = result r.checks.loudness ∧ num l 93 1 = result r.checks.shortTerm ∧ num l 94 1 = result r.checks.peak ∧
    num l 95 1 = result r.checks.relative ∧ num l 96 1 = result r.checks.coverage ∧
    num l 97 1 = result r.checks.captionGap ∧ num l 98 1 = result r.verdict ∧ num l 99 1 = r.lostBefore % 256) ∧
  (∀ r : NoticeRecord,
    let l := noticeBytes r
    let kinds : List NoticeKind :=
      [.segmentClosed, .violation, .captionGap, .captionStreamLost, .captionStreamRestored, .inputAbsent, .inputRestored,
        .scheduleOverrun, .recordingGap, .unarchivedOverwrite, .backlogHigh, .backlogNormal, .archiveTimeout, .holdTableFull,
        .logLoss, .referenceFailed, .referenceRestored, .counterHalf, .counterFull]
    let counters : List SvcCounter :=
      [.blocksBinned, .blocksBelowGate, .blocksAbsent, .blocksOverRange, .audioAbsentMi, .captionPackets, .captionMalformed,
        .captionStreamLosses, .chunksSealed, .chunksNotRecorded, .unarchivedOverwrites, .segmentsFailed]
    let zeros (off : Nat) : Prop := num l off (20 - off) = 0
    l.length = 24 ∧ kinds[num l 0 1]? = some r.notice.kind ∧
    num l 1 1 = (match r.notice.svc with
      | none => 0xFF
      | some i => i.val) ∧
    num l 2 1 = bit r.notice.mi.isNone 1 ∧ num l 3 5 = r.notice.mi.getD 0 % 2 ^ 40 ∧
    (match r.notice.detail with
      | .nothing => zeros 8
      | .sequence n => num l 8 6 = n % 2 ^ 48 ∧ zeros 14
      | .gap id first => hasId l 8 id ∧ num l 13 5 = first % 2 ^ 40 ∧ zeros 18
      | .captionStream lane stream => num l 8 1 = lane % 256 ∧ num l 9 1 = stream % 256 ∧ zeros 10
      | .audioLane lane => num l 8 1 = lane % 256 ∧ zeros 9
      | .segment id => hasId l 8 id ∧ zeros 13
      | .priority p => num l 8 1 = p % 256 ∧ zeros 9
      | .lostChunk slot start => num l 8 2 = slot % 2 ^ 16 ∧ num l 10 5 = start % 2 ^ 40 ∧ zeros 15
      | .backlog b t => num l 8 4 = b % 2 ^ 32 ∧ num l 12 4 = t % 2 ^ 32 ∧ zeros 16
      | .take slot token => num l 8 2 = slot % 2 ^ 16 ∧ num l 10 2 = token % 2 ^ 16 ∧ zeros 12
      | .counter (.service k i) => counters[num l 8 1]? = some k ∧ num l 9 1 = i.val ∧ zeros 10
      | .counter .archiveTimeouts => num l 8 1 = 12 ∧ num l 9 1 = 0xFF ∧ zeros 10
      | .counter .logRecordsLost => num l 8 1 = 13 ∧ num l 9 1 = 0xFF ∧ zeros 10
      | .counter (.framesDiscarded p) => num l 8 1 = 14 ∧ num l 9 1 = p.val ∧ zeros 10) ∧
    num l 20 4 = r.droppedBefore % 2 ^ 32) ∧
  (∀ r : Response,
    let payload := answerBytes r.answer
    let status : Byte := match r.status with
      | .ok => 0x00
      | .clamped => 0x01
      | .busy => 0x02
      | .notPermitted => 0x03
      | .badArgument => 0x04
      | .full => 0x05
      | .empty => 0x06
      | .order => 0x07
      | .conflict => 0x08
      | .notFound => 0x09
      | .gone => 0x0A
      | .tooLate => 0x0B
      | .state => 0x0C
      | .fixed => 0x0D
    let two (n : Nat) : List Byte := [BitVec.ofNat 8 (n / 256), BitVec.ofNat 8 n]
    let four (n : Nat) : List Byte := two (n / 2 ^ 16) ++ two n
    let six (n : Nat) : List Byte := two (n / 2 ^ 32) ++ four n
    let yes (b : Bool) : List Byte := [if b then 1 else 0]
    responseFrame r = withCrc ([r.tag, status] ++ two payload.length ++ payload) ∧
    answerBytes .nothing = [] ∧ (∀ b, answerBytes (.late b) = yes b) ∧ (∀ b, answerBytes (.repeated b) = yes b) ∧
    (∀ i : Svc, answerBytes (.member i) = [BitVec.ofNat 8 i.val]) ∧ (∀ n, answerBytes (.mark n) = six n) ∧
    (∀ x a b, answerBytes (.record x a b) = recordBytes x ++ six a ++ six b) ∧
    (∀ a b c, answerBytes (.logGone a b c) = six a ++ six b ++ six c) ∧
    (∀ a b, answerBytes (.logNotFound a b) = six a ++ six b) ∧
    (∀ n t a b c, answerBytes (.store n t a b c) = four n ++ four t ++ four a ++ four b ++ four c) ∧
    (∀ a b c t, answerBytes (.reserves a b c t) = four a ++ four b ++ four c ++ four t) ∧
    (∀ x, answerBytes (.notice x) = noticeBytes x) ∧
    ∀ x : Route, ∃ k : Nat, k < 2 ^ 8 ∧
      (match x.kind with
        | none => k = 0xFF
        | some kind => ∀ n : NoticeRecord, n.notice.kind = kind → (noticeBytes n).head? = some (BitVec.ofNat 8 k)) ∧
      answerBytes (.route x) =
        yes x.enabled ++ [BitVec.ofNat 8 k, BitVec.ofNat 8 x.value.toNat, BitVec.ofNat 8 x.mask.toNat,
          BitVec.ofNat 8 x.port.val]) ∧
  ∀ y : Slot,
    (∀ o : Fin 20, y.chunk.audio[o].length ≤ 4800) → y.chunk.frames.length ≤ 50 → y.chunk.packets.length ≤ 512 →
    y.chunk.segments.length ≤ 8 → (∀ f ∈ y.chunk.frames, f.bytes.length = 12288) →
    let k := y.chunk
    let l := chunkPayload y
    let frames := k.frames.length
    l.length = 4096 + 384000 + 12288 * frames + 48 * k.packets.length ∧
    num l 0 1 = y.svc.val ∧ num l 1 1 = (if y.keepUsed = .reduced then 1 else 0) ∧
    num l 2 1 = bit y.cutShort 1 + bit y.fillFrames 2 ∧ num l 3 1 = k.segments.length ∧ num l 4 1 = bit k.more 1 ∧
    num l 5 5 = y.start % 2 ^ 40 ∧ num l 10 5 = k.first % 2 ^ 40 ∧ num l 15 5 = k.endMi % 2 ^ 40 ∧
    num l 20 4 = y.sealNo.getD 0 % 2 ^ 32 ∧ num l 24 4 = k.keep.toNat ∧ num l 28 4 = k.absent.toNat ∧
    (∀ j < 8, hasId l (32 + 5 * j) (k.segments[j]?.getD none)) ∧
    num l 72 1 = frames ∧ num l 73 2 = k.packets.length ∧ num l 75 2 = min 65535 k.overflow.toList.sum ∧
    num l 77 4 = 384000 ∧ num l 81 4 = 12288 * frames ∧ num l 85 4 = 48 * k.packets.length ∧
    (∀ j < 50, num l (89 + 2 * j) 1 = ((k.frames[j]?).elim 0 fun f => if f.offset < 10 then 0 else 1) ∧
      num l (90 + 2 * j) 1 = (k.frames[j]?).elim 0 fun f => f.position % 256) ∧
    (∀ j < 3907, num l (189 + j) 1 = 0) ∧
    (∀ (o : Fin 20) (j : Nat), j < 4800 →
      num l (4096 + 19200 * o.val + 4 * j) 2 = (k.audio[o][j]?).elim 0 (fun p => signed p.1) ∧
      num l (4096 + 19200 * o.val + 4 * j + 2) 2 = (k.audio[o][j]?).elim 0 fun p => signed p.2) ∧
    (∀ j f, k.frames[j]? = some f → (l.drop (388096 + 12288 * j)).take 12288 = f.bytes) ∧
    ∀ j q, k.packets[j]? = some q →
      let a := 388096 + 12288 * frames + 48 * j
      num l a 1 = (q.offset + bit q.packet.duration.isNone 128) % 256 ∧ num l (a + 1) 1 = q.packet.kind % 256 ∧
      num l (a + 2) 1 = q.packet.row % 256 ∧ num l (a + 3) 1 = q.packet.count % 256 ∧
      num l (a + 4) 2 = q.packet.duration.getD 0 % 2 ^ 16 ∧
      ∀ n < 42, num l (a + 6 + n) 1 = (q.packet.chars[n]?).elim 0 (·.toNat)

/-- R175 and the ranges of chapters 1, 10 and 11 are kept by every step: station time stays a number of 40 bits and LOCKED means a
reference edge; every port keeps the role its straps give, at most four requests, and in LINK_DOWN none but one that has been
passed to its block (log entry 17, DEDUCED); every notice queue and attention line, and every counter with its flags, stays as
R185 to R188 say. -/
def Obligations.EveryStepKeepsPortsRouterAndBank : Prop :=
  ∀ s t : State, step s = .next t →
    (s.station.Good → t.station.Good) ∧
    (s.GoodRoles → t.GoodRoles) ∧
    ((∀ p : PortNo, s.ports[p].Good) → ∀ p : PortNo, t.ports[p].Good) ∧
    ((∀ p : PortNo, s.router.ports[p].Good) → ∀ p : PortNo, t.router.ports[p].Good) ∧
    (s.bank.Good → t.bank.Good)

/-! ### Chapter 11: notices and counters -/

/-- R182 to R186: a notice is enqueued once at every port that is the target of an enabled route which matches its kind and its
service, with the port's dropped count, or is counted there as dropped when 64 wait; in PULSE a pulse is owed for it. READ NOTICE
takes the oldest record of the port that issues it, and an empty queue answers EMPTY. SET ROUTE stores a route and answers with its
five fields, SET ATTENTION MODE stores a mode, and a pulse of the line lowers the count owed. That an enable byte of 2 or more is
refused with BAD_ARGUMENT is read from R177 and 10.8.1 (log entry 16, DEDUCED). That the pulses given are counted, and that the command ATTENTION_PULSE has no effect in LEVEL or with none owed, is the model's choice (log entry 18). -/
def Obligations.NoticesReachTheirRoutesAndPorts : Prop :=
  ((∀ (s : State) (n : Notice),
     let fits (r : Route) : Prop :=
       r.enabled = true ∧ (∀ k, r.kind = some k → k = n.kind) ∧
       match n.svc with
       | none => r.mask = 0xF#4
       | some i => ∀ b < 4, r.mask.getLsbD b = false → r.value.getLsbD b = i.val.testBit b
     ∃ v, exec (.noticeArrival n) s = .next v ∧
       v = { s.arrive (.noticeArrival n) with router := { s.router with ports := v.router.ports } } ∧
       ∀ p : PortNo,
         let x := s.router.ports[p]
         (¬ (∃ k : Fin 16, s.router.routes[k].port = p ∧ fits s.router.routes[k]) → v.router.ports[p] = x) ∧
         ((∃ k : Fin 16, s.router.routes[k].port = p ∧ fits s.router.routes[k]) →
           v.router.ports[p] =
             if x.queue.length < 64 then
               { x with
                 queue := x.queue ++ [⟨n, x.dropped⟩], dropped := 0, line := decide (x.mode = AttentionMode.level)
                 owed := if x.mode = AttentionMode.pulse then min 64 (x.owed + 1) else x.owed }
             else { x with dropped := min (2 ^ 32 - 1) (x.dropped + 1) })) ∧
   ∀ (s : State) (rq : Req),
     let u := s.arrive (.readNotice rq)
     let x := s.router.ports[rq.port]
     (x.queue = [] → exec (.readNotice rq) s = .next (u.respond rq .empty .nothing)) ∧
     ∀ r rs, x.queue = r :: rs →
       exec (.readNotice rq) s =
         .next ({ u with
           router := { s.router with
             ports := s.router.ports.set rq.port
               { x with queue := rs, line := decide (x.mode = AttentionMode.level ∧ rs ≠ []) } } }.respond rq .ok (.notice r))) ∧
  ∀ (s : State) (rq : Req) (n mode : Nat) (a : RouteArgs) (p : PortNo),
    let c := Instr.setRoute rq n a
    let d := Instr.setAttentionMode rq n mode
    let x := s.router.ports[p]
    let port (u : State) (y : PortNotices) : State :=
      { u with router := { s.router with ports := s.router.ports.set p y } }
    (16 ≤ n ∨ 2 ≤ a.enable ∨ (19 ≤ a.kind ∧ a.kind ≠ 255) ∨ 16 ≤ a.value ∨ 16 ≤ a.mask ∨ 3 ≤ a.port →
      exec c s = .next ((s.arrive c).respond rq .badArgument .nothing)) ∧
    (∀ (k : Fin 16) (enabled : Bool) (kind : Option NoticeKind) (target : PortNo), n = k.val →
      a.enable = (if enabled then 1 else 0) → a.kind = (match kind with
        | none => 255
        | some j => noticeCode j) → a.value < 16 → a.mask < 16 → a.port = target.val →
      let r : Route := ⟨enabled, kind, BitVec.ofNat 4 a.value, BitVec.ofNat 4 a.mask, target⟩
      exec c s = .next ({ s.arrive c with
        router := { s.router with routes := s.router.routes.set k r } }.respond rq .ok (.route r)) ∧
      answerBytes (.route r) = [a.enable, a.kind, a.value, a.mask, a.port].map (BitVec.ofNat 8)) ∧
    (3 ≤ n ∨ 2 ≤ mode → exec d s = .next ((s.arrive d).respond rq .badArgument .nothing)) ∧
    (n = p.val → x.Good →
      (mode = 0 → exec d s =
        .next ((port (s.arrive d) { x with mode := .level, owed := 0, line := decide (x.queue ≠ []) }).respond rq .ok
          .nothing)) ∧
      (mode = 1 → exec d s =
        .next ((port (s.arrive d) { x with mode := .pulse, line := false }).respond rq .ok .nothing))) ∧
    (x.mode = .pulse → 0 < x.owed →
      exec (.attentionPulse p) s = .next (port s { x with owed := x.owed - 1, pulses := x.pulses + 1 })) ∧
    (x.mode = .level ∨ x.owed = 0 → exec (.attentionPulse p) s = .next s)

/-- R187, R188, R189: the counter bank. An increment adds one up to 2^32 − 1; the one that brings a counter to 2^31 or to 2^32 − 1
sets the HALF or FULL flag with no seen mark, and raises its notice when the kind is enabled; no other counter changes. READ
COUNTERS marks the set flags seen by its port, CLEAR ALERTS clears the flags that its port has seen, and CLEAR COUNTERS zeroes the
counters selected: those of a service below 16, or the part-wide ones. -/
def Obligations.CountersCountAndAreCleared : Prop :=
  (∀ (s : State) (c : Counter),
    let x := s.bank.cell c
    let atHalf : Prop := x.value + 1 = 2 ^ 31
    let atFull : Prop := x.value + 1 = 2 ^ 32 - 1
    let svc : Option Svc := match c with
      | .service _ i => some i
      | _ => none
    let raised (kind : NoticeKind) : List Instr :=
      if s.bank.mask.getLsbD (counterKind c) then [notice kind svc s.station.time (.counter c)] else []
    ∃ v, exec (.counterIncrement c) s = .next v ∧
      (2 ^ 32 - 1 ≤ x.value → v.bank.cell c = x) ∧
      (x.value < 2 ^ 32 - 1 →
        v.bank.cell c =
          { value := x.value + 1, half := x.half || decide atHalf, full := x.full || decide atFull
            seenHalf := if atHalf then 0 else x.seenHalf, seenFull := if atFull then 0 else x.seenFull }) ∧
      (∀ d, d ≠ c → v.bank.cell d = s.bank.cell d) ∧ v.bank.mask = s.bank.mask ∧
      v = { s.arrive (.counterIncrement c) with
        bank := v.bank
        inFlight := (s.arrive (.counterIncrement c)).inFlight ++
          (if atHalf then raised .counterHalf else if atFull then raised .counterFull else []) }) ∧
  ∀ (s : State) (rq : Req) (n kinds : Nat),
    let m := Instr.setAlertMask rq kinds
    let r := Instr.readCounters rq n
    let a := Instr.clearAlerts rq n
    let z := Instr.clearCounters rq n
    let seen (c : CounterCell) : CounterCell :=
      { c with
        seenHalf := if c.half then c.seenHalf ||| BitVec.twoPow 3 rq.port.val else c.seenHalf
        seenFull := if c.full then c.seenFull ||| BitVec.twoPow 3 rq.port.val else c.seenFull }
    let clearedHalf (c : CounterCell) : Bool := c.half && c.seenHalf.getLsbD rq.port.val
    let clearedFull (c : CounterCell) : Bool := c.full && c.seenFull.getLsbD rq.port.val
    let cleared (c : CounterCell) : CounterCell :=
      { c with
        half := c.half && !clearedHalf c, full := c.full && !clearedFull c
        seenHalf := if clearedHalf c then 0 else c.seenHalf, seenFull := if clearedFull c then 0 else c.seenFull }
    let zero (_ : CounterCell) : CounterCell := ⟨0, false, false, 0, 0⟩
    let flags (l : List CounterCell) : List (Nat × Bool × Bool) :=
      (l.mapIdx fun k c => (k, c.half, c.full)).filter fun e => e.2.1 || e.2.2
    let acts (cells : List CounterCell) (bank : (CounterCell → CounterCell) → Bank) : Prop :=
      exec r s = .next ({ s.arrive r with bank := bank seen }.respond rq .ok
        (.counters (cells.map fun c : CounterCell => CounterView.mk c.value c.half c.full))) ∧
      exec a s = .next ({ s.arrive a with bank := bank cleared }.respond rq .ok (.alerts (flags (cells.map cleared)))) ∧
      exec z s = .next ({ s.arrive z with bank := bank zero }.respond rq .ok .nothing)
    exec m s = .next ({ s.arrive m with bank := { s.bank with mask := BitVec.ofNat 15 kinds } }.respond rq
      (if kinds < 2 ^ 15 then .ok else .clamped) .nothing) ∧
    (17 ≤ n → ∀ c, c = r ∨ c = a ∨ c = z → exec c s = .next ((s.arrive c).respond rq .badArgument .nothing)) ∧
    (∀ i : Svc, n = i.val →
      acts s.bank.services[i].toList fun f =>
        { s.bank with services := s.bank.services.set i (Vector.ofFn fun k => f s.bank.services[i][k]) }) ∧
    (n = 16 →
      acts s.bank.part.toList fun f => { s.bank with part := Vector.ofFn fun k => f s.bank.part[k] })

/-! ### Reads, and the two resets -/

/-- R6, R16, R35, R69, R72, R92, R117, R141, R155, R181: READ STATUS, READ SCHEDULE, READ SURVEY and READ METER change nothing of the
blocks, answer with the state as it stands, and refuse a service or a part that there is not. The service part and the recorder
part of READ STATUS are taken by two blocks: the first takes its share and hands the request on, other events may fall between,
and the second adds its own share as it then stands and answers. That the request between its two shares is READ_STATUS under way
once more, and a half held in `shares`, is the model's choice (log entry 19). What the station part shows before the first MI has ended is the model's value
after reset (log entry 21, DESIGN CHOICE), and the recorder part goes on showing the enable of a run that has ended (log entry 30,
DESIGN CHOICE). -/
def Obligations.ReadsOfServicesChangeNothing : Prop :=
  ∀ (s : State) (rq : Req) (n : Nat),
    let answers (c : Instr) (a : Answer) : Prop := exec c s = .next ((s.arrive c).respond rq .ok a)
    let bad (c : Instr) : Prop := exec c s = .next ((s.arrive c).respond rq .badArgument .nothing)
    let x := s.compliance
    let y := s.store
    let those (p : SlotState → Prop) [DecidablePred p] : Nat := (y.slots.filter fun e => decide (p e.2.state)).length
    let none₁ : Prop := ∀ h ∈ s.shares, ¬ (h.rq = rq ∧ h.selector = n)
    let second (h : HalfStatus) (a : Answer) : Prop :=
      exec (.readStatus rq n) s =
        .next ({ s.arrive (.readStatus rq n) with shares := s.shares.erase h }.respond rq .ok a)
    let hands (x : StatusShare) : Prop :=
      exec (.readStatus rq n) s =
        .next ({ s.arrive (.readStatus rq n) with shares := s.shares ++ [HalfStatus.mk rq n x] }.send [.readStatus rq n])
    let unheld := (y.slots.filter fun e : Nat × Slot => e.2.isArchived && decide (e.2.holdCount = 0)).length
    (none₁ → n = 0 → answers (.readStatus rq n) (.station s.station.time s.station.ref s.station.held)) ∧
    (∀ i : Svc, none₁ → n = i.val + 1 → hands (.service i s.sched[i].state s.sched[i].stopPending)) ∧
    (∀ (h : HalfStatus) (i : Svc) (state : SvcState) (stopPending : Bool),
      s.shares.find? (fun h => decide (h.rq = rq ∧ h.selector = n)) = some h → h.share = .service i state stopPending →
      let k := s.checker[i]
      second h (.service state stopPending
        { run := k.run
          stream := match k.stream with
            | .waiting => .waiting
            | .live => .live
            | .lostFromLive => .lost
            | .lostFromWaiting => .lost
          timer := k.timer, rows := k.rows, rowMask := k.record.rowMask
          segments := k.segments.map fun g =>
            { inst := g.inst, endMi := g.endMi, combined := g.combined, judged := g.judged, audible := g.audible
              covered := g.covered, lost := g.lost, gapRun := g.gapRun, gapCount := g.gapCount
              longestGap := g.longestGap }
          presenceCount := k.presence.length, heldCount := k.held.length })) ∧
    (none₁ → n = 17 → answers (.readStatus rq n) (.compliance
      { profiles := x.profiles, refs := x.refs, lastWritten := x.lastWritten
        oldestHeld := max 1 (x.lastWritten - 4095), recordsHeld := x.log.length, mark := x.mark
        uncollected := (x.log.filter fun r => decide (x.mark < r.seq)).length
        writing := x.writing.map fun r => (r.seq, r.svc)
        waiting := (x.waiting.filter fun w => decide (w ≠ .clearReferences)).length })) ∧
    (∀ (h : HalfStatus) (v : RecorderView),
      s.shares.find? (fun h => decide (h.rq = rq ∧ h.selector = n)) = some h → h.share = .recorder v →
      second h (.recorder v s.clips.pool.length)) ∧
    (none₁ → n = 18 → hands (.recorder
      { slotCount := y.slotCount, free := y.slotCount - y.slots.length, filling := those (· = .filling)
        sealed := those (· = .sealed), inTransfer := those (· = .inTransfer)
        archived := (y.slots.filter fun e : Nat × Slot => e.2.isArchived).length, archivedUnheld := unheld
        reusable := y.slotCount - y.slots.length + unheld, sealCount := y.sealCount, reserve0 := y.reserve0
        reserve1 := y.reserve1, reserve2 := y.reserve2, threshold := y.threshold, backlog := those (· = .sealed)
        backlogState := y.backlog
        services := (List.finRange 16).map fun i : Svc =>
          let r := s.recorder[i]
          let slot := r.span.bind (·.slot)
          { run := r.run, enable := r.enable, span := r.span.map (·.start), slot := slot, state := r.state
            keep := (slot.bind fun k => slotAt k y.slots).map (·.keepUsed) } })) ∧
    (∀ z : Slot, z.isArchived = true ↔ ∃ t, z.state = .archived t) ∧
    (none₁ → n = 19 → answers (.readStatus rq n)
      (.ports (s.ports.toList.map fun x => ⟨x.strap, x.role, decide (x.link = .up), x.queue.length⟩) rq.port)) ∧
    (none₁ → 20 ≤ n → bad (.readStatus rq n)) ∧
    (16 ≤ n → bad (.readSchedule rq n) ∧ bad (.readSurvey rq n) ∧ bad (.readMeter rq n)) ∧
    ∀ i : Svc, n = i.val →
      let x := s.sched[i]
      let y := s.meter[i]
      let v := y.survey
      answers (.readSchedule rq n) (.schedule
        { state := x.state, stopPending := x.stopPending, time := s.station.time
          openSeg := x.openSeg.map fun g =>
            { inst := g.inst, id := g.id, cls := g.cls, profile := g.profile, stagedStart := g.stagedStart
              actualStart := g.actualStart, planned := g.planned, elapsed := s.station.time.getD 0 - g.actualStart
              late := g.late, referenceLost := g.referenceLost, incomplete := g.incomplete }
          staging := x.staging.map fun d => (d, s.station.time.any fun m => decide (d.start ≤ m))
          closing := x.closing.map fun g =>
            { inst := g.inst, id := g.id, cause := g.cause, actualStart := g.actualStart, endMi := g.endMi
              needsSummary := decide (g.cause ≠ some .skipped), meterReceived := g.meterSummary.isSome
              captReceived := g.captionSummary.isSome }
          view := x.view, viewFrom := x.viewFrom, groups := s.groups }) ∧
      answers (.readSurvey rq n) (.survey
        { state := v.state, classes := v.classes, startMi := v.startMi, stopMi := v.stopMi, bins := v.bins
          total := v.bins.toList.sum, belowGate := v.belowGate, saturated := v.saturated
          integrated := gatedIntegration v.bins.toList }) ∧
      answers (.readMeter rq n) (.meter
        { run := y.run, lastBlock := y.lastBlock, lastShort := y.lastShort
          segment := (y.segments.getLast?.filter fun g => decide (g.endMi = none)).map fun g =>
            { inst := g.inst, cls := g.cls, start := g.start, mis := g.mis, absentMis := g.absentMis
              positions := g.positions, binned := g.histogram.toList.sum, belowGate := g.belowGate
              excluded := g.excluded, overRange := g.overRange, maxMomentary := g.maxMomentary
              maxShortTerm := g.maxShortTerm, peak := peakCode g.maxSample
              integrated := gatedIntegration g.histogram.toList } })

/-- R140, R152, R156, R157, R169: FIND CLIP, READ CHUNK REVIEW, READ HOLDS and READ ARCHIVE STATUS change nothing and answer with the
state as it stands. The head of the archive queue is the SEALED slot with the lowest seal number and its tail that with the
highest; the takes in flight are listed oldest first. A STORED entry whose slot is FREE is answered with no seal number and hold
count 0: the model's reading (log entry 23, DEDUCED). -/
def Obligations.ReadsOfTheStoreChangeNothing : Prop :=
  ∀ (s : State) (rq : Req) (n svc : Nat) (m : Mi) (offset length : Nat),
    let answers (c : Instr) (st : Status) (a : Answer) : Prop := exec c s = .next ((s.arrive c).respond rq st a)
    let find := Instr.findClip rq svc m
    let review := Instr.readChunkReview rq n svc m offset length
    let queue := s.store.slots.filter fun e => decide (e.2.state = .sealed)
    (16 ≤ svc → answers find .badArgument .nothing ∧ answers review .badArgument .nothing) ∧
    (s.store.slotCount ≤ n ∨ length = 0 ∨ 4096 < length → answers review .badArgument .nothing) ∧
    (∀ i : Svc, svc = i.val →
      ((∀ e ∈ s.clips.lists[i], e.start ≠ 20 * (m / 20)) → answers find .notFound .nothing) ∧
      (∀ e ∈ s.clips.lists[i], e.start = 20 * (m / 20) →
        (s.clips.lists[i]).Pairwise (fun a b => a.start < b.start) →
        (e.kind = .gap → answers find .ok (.clip (.gap e.start))) ∧
        (e.kind = .lost → answers find .ok (.clip (.lost e.start))) ∧
        (∀ k, e.kind = .stored k → slotAt k s.store.slots = none →
          answers find .ok (.clip (.stored e.start k none none 0))) ∧
        ∀ k y, e.kind = .stored k → slotAt k s.store.slots = some y →
          answers find .ok (.clip (.stored e.start k (some y.state) y.sealNo y.holdCount))) ∧
      (n < s.store.slotCount → 1 ≤ length → length ≤ 4096 →
        (∀ y, slotAt n s.store.slots = some y → y.state ≠ .filling → y.svc = i → y.start = m →
          answers review .ok (.review y.state y.sealNo y.length y.holdCount
            ((((chunkPayload y).take y.length).drop offset).take length))) ∧
        ((∀ y, slotAt n s.store.slots = some y → y.state = .filling ∨ y.svc ≠ i ∨ y.start ≠ m) →
          answers review .gone .nothing))) ∧
    (∃ views : List HoldView,
      (views.map fun v => (v.number, v.hold)) =
        (List.finRange 32).filterMap (fun k => s.holds[k].map fun h => (k, h)) ∧
      (∀ v ∈ views, v.slots = (s.store.slots.filter fun e =>
        decide (e.2.svc = v.hold.svc ∧ v.hold.fromMi < e.2.start + 20 ∧ e.2.start < v.hold.toMi)).length) ∧
      answers (.readHolds rq) .ok (.holds (32 - views.length) views)) ∧
    ∃ head tail : Option (Nat × Nat),
      let seals (o : Option (Nat × Nat)) (best : Nat → Nat → Prop) : Prop :=
        (o = none ↔ queue = []) ∧
        ∀ j k, o = some (j, k) →
          (∃ y, (j, y) ∈ queue ∧ y.sealNo.getD 0 = k) ∧ ∀ e ∈ queue, best k (e.2.sealNo.getD 0)
      seals head (fun a b => a ≤ b) ∧ seals tail (fun a b => b ≤ a) ∧
      answers (.readArchiveStatus rq) .ok (.archive
        { queueLength := queue.length, head := head, tail := tail, backlogState := s.store.backlog
          threshold := s.store.threshold, inFlight := s.archive.takes.length
          takes := s.archive.takes.filterMap fun t : Take =>
            (slotAt t.slot s.store.slots).map fun y => TakeStatus.mk t y.svc y.start y.sealNo
          lastToken := s.archive.tokenCounter })

/-- R1, R7, R12, R38, R57, R63, R94, R95, R119, R143, R144, R153, R168, R170, R175, R183, R185, R186, R189: power-on reset leaves the
state after reset, under the straps as they are read then, whatever went before. In it station time is UNSET and every other value
is the one that these rules give; and every condition of the other statements holds. The
two straps of a port give the value of its role, that of the higher bit first; that a strap tied high is read as 1 is the model's
reading (log entry 3), and so is that the numbering of a port's passes, which no card sees, goes on (log entry 17). A port that
straps a role which a lower-numbered port straps holds OBSERVER. -/
def Obligations.PowerOnResetGivesAGoodState : Prop :=
  (∀ (s : State) (t : Straps),
    let role (x : PortStraps) : Role :=
      if x.high then (if x.low then .observer else .archive) else (if x.low then .console else .playout)
    let strap : Vector Role 3 := #v[role t.port0, role t.port1, role t.port2]
    let held : Vector Role 3 :=
      #v[strap[0], if strap[1] = strap[0] then .observer else strap[1],
        if strap[2] = strap[0] ∨ strap[2] = strap[1] then .observer else strap[2]]
    exec (.powerOnReset t) s =
      .next { State.reset with
        ports := Vector.ofFn fun p : PortNo =>
          { strap := strap[p], role := held[p], link := .down, queue := [], rx := none, serving := none
            passes := s.ports[p].passes, out := [] }
        pending := s.pending }) ∧
  let s := State.reset
  let record (i : Svc) : ServiceRecord :=
    { audioLane := i, channels := [⟨0, .w100⟩, ⟨1, .w100⟩], captionLane := i, captionStream := 0, rowMask := 0xFFFF
      speechFloor := -500, streamTimeout := 50, proxyLane := none, normalKeep := 0x1FFFFFF, reducedKeep := 0x108421
      recording := false, priority := 0, overwrite := false, profile := 0, unschedPlanned := 36000, holdGuard := 100 }
  (s.station.time = none ∧ s.station.ref = .freeRun ∧ s.station.kind = .oscillator ∧
    ∀ l : Lane, s.lanes[l] = { lock := .notHeld, broken := true, frames := 0 }) ∧
  (∀ i : Svc, s.map[i] = record i ∧ s.sched[i].state = .disabled ∧ s.sched[i].stopPending = false ∧
    s.sched[i].staging = [] ∧ s.sched[i].openSeg = none ∧ s.sched[i].closing = [] ∧ s.sched[i].instCounter = 0 ∧
    s.sched[i].view = .recording) ∧
  (∀ g : Fin 4, s.groups[g] = 0) ∧
  (∀ i : Svc,
    let m := s.meter[i]
    m.run = .idle ∧ m.runStart = none ∧ m.input = [] ∧ m.lastTick = none ∧ m.segments = [] ∧ m.filters = [] ∧
    m.prevAbsent = false ∧ m.ring = [] ∧ m.lastBlock = .none ∧ m.lastShort = none ∧
    m.survey = { state := .idle, classes := 0, startMi := .none, stopMi := .none, bins := Vector.replicate 150 0
                 belowGate := 0, saturated := false }) ∧
  (∀ i : Svc,
    let k := s.checker[i]
    k.run = .idle ∧ k.runStart = none ∧ k.lastTick = none ∧ k.stream = .waiting ∧ k.timer = 0 ∧
    (∀ r : Fin 16, k.rows[r] = none) ∧ k.textSeen = false ∧ k.presence = [] ∧ k.held = [] ∧ k.segments = []) ∧
  s.compliance =
    { profiles := Vector.replicate 8
        { target := -230, tolerance := 10, shortTerm := none, peak := some (-10), relative := none, captions := false
          minCoverage := 900, maxGap := some 100, overrun := 50 }
      refs := Vector.replicate 16 none, log := [], nextSeq := 1, mark := 0, loss := 0, writing := none, waiting := [] } ∧
  s.compliance.lastWritten = 0 ∧
  s.store =
    { slotCount := 16384, slots := [], sealCount := 0, reserve0 := 2048, reserve1 := 1024, reserve2 := 256
      threshold := 8192, backlog := .normal } ∧
  (∀ i : Svc,
    let r := s.recorder[i]
    r.run = .idle ∧ r.runStart = none ∧ r.enable = none ∧ r.span = none ∧ r.state = none ∧ r.onAir = [] ∧ r.held = []) ∧
  (∀ h : Fin 32, s.holds[h] = none) ∧ (∀ i : Svc, s.clips.lists[i] = []) ∧ s.clips.pool = [] ∧
  s.archive.takes = [] ∧ s.archive.tokenCounter = 0 ∧
  (∀ r : Fin 16, s.router.routes[r] = { enabled := false, kind := none, value := 0, mask := 0, port := 0 }) ∧
  (∀ p : PortNo,
    let q := s.router.ports[p]
    q.queue = [] ∧ q.dropped = 0 ∧ q.mode = .level ∧ q.owed = 0 ∧ q.line = false) ∧
  (∀ (i : Svc) (k : Fin 12), s.bank.services[i][k] = { value := 0, half := false, full := false, seenHalf := 0, seenFull := 0 }) ∧
  (∀ k : Fin 5, s.bank.part[k] = { value := 0, half := false, full := false, seenHalf := 0, seenFull := 0 }) ∧
  s.bank.mask = 0x7FFF ∧
  s.station.Good ∧ s.GoodRecords ∧ (∀ k : Fin 8, s.compliance.profiles[k].Good) ∧
  (∀ i : Svc, s.sched[i].GoodStaging ∧ s.sched[i].GoodState ∧ s.sched[i].GoodClosing) ∧
  (∀ i : Svc, s.meter[i].Good ∧ s.checker[i].Good) ∧ s.compliance.Good ∧ s.store.GoodSettings ∧ s.GoodStore ∧
  s.GoodHoldCounts ∧ s.clips.Good ∧ s.GoodRoles ∧ (∀ p : PortNo, s.ports[p].Good ∧ s.router.ports[p].Good) ∧
  s.bank.Good

/-- R36, R37, R56, R93, R118, R142, R168, R175, R179, R185, R186, R189: WARM RESET, taken as one event whose parts come in the
order of log entry 13 (DEDUCED). A request at the head of another port's queue is passed to its block; the other requests, the
notice queues and the messages "run started" under way go. Services that are not DISABLED become READY with nothing staged, open
or closing (their views from the MI in progress: log entry 7; the open spans that R9 asks for end there: log entry 5); what was closing or open is handed over, with cause RESET, to the
compliance unit, and behind it the clearing of the references, which waits where a write is in progress. Meter, checker and
recorder go IDLE, surveys stay. Each ACTIVE run is cut at the MI in progress, in service order (log entry 24); every slot in transfer is SEALED
again and its take ended; the backlog is tested. The increments under way are counted and then every counter is zeroed. The straps
are read again, a strap tied high as 1 (log entry 3, DEDUCED). The service map, groups, profiles, routes, holds, clip index, the other slots, the slot count, reserves, threshold,
link states, frames in reception and station time stay, and the response is OK. (A run that is ACTIVE with station time UNSET does
not arise: log entry 26.) -/
def Obligations.WarmResetClearsRunsAndKeepsSettings : Prop :=
  ∀ (s : State) (rq : Req) (t : Straps),
    let time := s.station.time
    let isReset (c : Instr) : Bool := match c with
      | .warmReset q _ => decide (q = rq)
      | _ => false
    let isStart (c : Instr) : Bool := match c with
      | .meterRunStarted _ | .checkerRunStarted _ | .recorderRunStarted _ => true
      | _ => false
    let counter (c : Instr) : Option Counter := match c with
      | .counterIncrement k => some k
      | _ => none
    let role (x : PortStraps) : Role :=
      if x.high then (if x.low then .observer else .archive) else (if x.low then .console else .playout)
    let strap : Vector Role 3 := #v[role t.port0, role t.port1, role t.port2]
    let held : Vector Role 3 :=
      #v[strap[0], if strap[1] = strap[0] then .observer else strap[1],
        if strap[2] = strap[0] ∨ strap[2] = strap[1] then .observer else strap[2]]
    let handed : List Waiting := (List.finRange 16).flatMap fun i : Svc =>
      (s.sched[i].closing.map fun g =>
        Waiting.completion i (if g.cause = some .skipped then g else { g with cause := some .reset }))
        ++ (match s.sched[i].openSeg with
          | none => []
          | some g => [Waiting.completion i { g with cause := some .reset, endMi := some (time.getD g.actualStart) }])
    let passed : State :=
      (List.finRange 3).foldl (fun u p => u.serve p) { s with inFlight := s.inFlight.filter fun c => !isReset c }
    let written : State :=
      ({ passed with inFlight := passed.inFlight.filter fun c => !isStart c }.complete handed).complete [.clearReferences]
    let cuts : State := (List.finRange 16).foldl
      (fun u i => if s.recorder[i].run = .active then u.worked i ((u.work i).cut (u.around i) (time.getD 0)) else u) written
    let returned : State :=
      { cuts with store := { cuts.store with
        slots := cuts.store.slots.map fun e : Nat × Slot =>
          if e.2.state = SlotState.inTransfer then (e.1, { e.2 with state := SlotState.sealed }) else e } }.testBacklog
    let counted : State := (returned.inFlight.filterMap counter).foldl (fun u k => u.bankAdd k)
      { returned with inFlight := returned.inFlight.filter fun c => (counter c).isNone }
    (∀ (u : State) (p : PortNo), exec (.requestService p) u = .next ((u.arrive (.requestService p)).serve p)) ∧
    (∀ (u : State) (k : Counter), exec (.counterIncrement k) u = .next ((u.arrive (.counterIncrement k)).bankAdd k)) ∧
    ∃ r v : State, exec (.warmReset rq t) s = .next v ∧ v = r.respond rq .ok .nothing ∧
      (∀ i : Svc,
        r.sched[i] =
          { s.sched[i] with
            state := if s.sched[i].state = .disabled then .disabled else .ready
            stopPending := false, staging := [], openSeg := none, closing := [], view := .recording, viewFrom := time
            runInst := none } ∧
        r.openSpans[i] = s.openSpans[i].map (fun p => { p with upTo := some (p.upTo.getD s.edges) }) ∧
        r.views[i] = .present ∧
        r.meter[i] =
          { s.meter[i] with
            run := .idle, runStart := none, input := [], lastTick := none, segments := [], filters := []
            prevAbsent := false, ring := [], passed := [], lastBlock := .none, lastShort := none } ∧
        r.checker[i] =
          { s.checker[i] with
            run := .idle, runStart := none, lastTick := none, stream := .waiting, timer := 0
            rows := Vector.replicate 16 none, textSeen := false, presence := [], held := [], segments := [] } ∧
        r.recorder[i] =
          { s.recorder[i] with
            run := .idle, runStart := none, enable := none, span := none, state := none, onAir := [], held := [] } ∧
        (∀ inst m, exec (.meterSummaryArrival i inst m) v = .next (v.arrive (.meterSummaryArrival i inst m))) ∧
        ∀ inst m, exec (.captionSummaryArrival i inst m) v = .next (v.arrive (.captionSummaryArrival i inst m))) ∧
      r.compliance = written.compliance ∧
      r.compliance.profiles = s.compliance.profiles ∧ r.compliance.mark = s.compliance.mark ∧
      (s.compliance.Good → s.compliance.writing = none →
        r.compliance.refs = Vector.replicate 16 none ∧ r.compliance.writing = none ∧ r.compliance.waiting = []) ∧
      (∀ w, s.compliance.writing = some w →
        r.compliance = { s.compliance with waiting := s.compliance.waiting ++ handed ++ [.clearReferences] }) ∧
      r.store = returned.store ∧ r.archive = ⟨[], s.archive.tokenCounter⟩ ∧
      r.store.slotCount = s.store.slotCount ∧ r.store.reserve0 = s.store.reserve0 ∧ r.store.reserve1 = s.store.reserve1 ∧
      r.store.reserve2 = s.store.reserve2 ∧ r.store.threshold = s.store.threshold ∧
      s.store.sealCount ≤ r.store.sealCount ∧ r.store.sealCount ≤ s.store.sealCount + 16 ∧
      (s.GoodStore →
        (∀ e ∈ r.store.slots, e.2.state ≠ .filling ∧ e.2.state ≠ .inTransfer) ∧
        ∀ n y, slotAt n s.store.slots = some y → y.state ≠ .filling →
          slotAt n r.store.slots = some (if y.state = .inTransfer then { y with state := .sealed } else y)) ∧
      (∀ p : PortNo,
        r.router.ports[p] = { s.router.ports[p] with queue := [], dropped := 0, owed := 0, line := false } ∧
        let x := passed.ports[p]
        r.ports[p] =
          { x with queue := if x.serving.isSome then x.queue.take 1 else [], strap := strap[p], role := held[p] } ∧
        x.link = s.ports[p].link ∧ x.rx = s.ports[p].rx) ∧
      r.bank = { Bank.powerOn with mask := s.bank.mask } ∧
      r.inFlight = counted.inFlight ∧ (∀ k, .counterIncrement k ∉ v.inFlight) ∧
      r = { r with
        station := s.station, lanes := s.lanes, map := s.map, groups := s.groups, holds := s.holds, clips := s.clips
        router := { r.router with routes := s.router.routes }, edges := s.edges, shares := s.shares
        pending := s.pending }
end

