-- ==== Sys2Proof/Laws/Loudness.lean ====
section
/-!
SUPPORT. What the exact arithmetic of loudness comes to in the real numbers: `floorLog` is the floor of a logarithm, a code is a
rounding, and the combinations of the powers of 10^(1/20) are compared as the numbers they are.
-/

namespace Sys2Proof.Machine

/-! ### Powers found bit by bit -/

theorem logBits_spec (p q k acc : Nat) (h : 10 ^ acc * q ≤ p) (h' : p < 10 ^ (acc + 2 ^ k) * q) :
    10 ^ logBits p q k acc * q ≤ p ∧ p < 10 ^ (logBits p q k acc + 1) * q := by
  induction k generalizing acc with
  | zero => exact ⟨h, h'⟩
  | succ k ih =>
    unfold logBits
    split
    · next e => exact ih _ e (by rwa [Nat.add_assoc, ← Nat.two_mul, ← Nat.pow_succ'])
    · next e => exact ih _ h (Nat.lt_of_not_le e)

theorem rootBits_spec (t k acc : Nat) (h : acc ^ 20 ≤ t) (h' : t < (acc + 2 ^ k) ^ 20) :
    rootBits t k acc ^ 20 ≤ t ∧ t < (rootBits t k acc + 1) ^ 20 := by
  induction k generalizing acc with
  | zero => exact ⟨h, h'⟩
  | succ k ih =>
    unfold rootBits
    split
    · next e => exact ih _ e (by rwa [Nat.add_assoc, ← Nat.two_mul, ← Nat.pow_succ'])
    · next e => exact ih _ h (Nat.lt_of_not_le e)

/-! ### Logarithms -/

theorem tenPowLe_iff {num den : Nat} (h : 0 < den) (e : Int) :
    tenPowLe e num den = true ↔ (10 : ℝ) ^ e ≤ num / den := by
  have hd : (0 : ℝ) < den := by exact_mod_cast h
  rw [le_div_iff₀ hd]
  unfold tenPowLe
  split
  · next he =>
    obtain ⟨n, rfl⟩ := Int.eq_ofNat_of_zero_le he
    simp only [Int.toNat_natCast, decide_eq_true_eq, zpow_natCast]
    exact_mod_cast Iff.rfl
  · next he =>
    obtain ⟨n, hn⟩ := Int.eq_ofNat_of_zero_le (show 0 ≤ -e by omega)
    obtain rfl : e = -(n : Int) := by omega
    simp only [neg_neg, Int.toNat_natCast, decide_eq_true_eq, zpow_neg, zpow_natCast]
    rw [inv_mul_le_iff₀ (by positivity), mul_comm]
    exact_mod_cast Iff.rfl

theorem decadeFrom_spec {num den : Nat} (h : 0 < den) (fuel : Nat) (e : Int) (h₁ : (10 : ℝ) ^ e ≤ num / den)
    (h₂ : (num / den : ℝ) < 10 ^ (e + fuel + 1)) :
    (10 : ℝ) ^ decadeFrom num den fuel e ≤ num / den ∧ (num / den : ℝ) < 10 ^ (decadeFrom num den fuel e + 1) := by
  induction fuel generalizing e with
  | zero => exact ⟨h₁, by simpa [decadeFrom] using h₂⟩
  | succ fuel ih =>
    unfold decadeFrom
    split
    · next he =>
      exact ih _ ((tenPowLe_iff h _).mp he) (by
        rw [show e + 1 + (fuel : Int) + 1 = e + ((fuel + 1 : Nat) : Int) + 1 by push_cast; ring]; exact h₂)
    · next he => exact ⟨h₁, lt_of_not_ge fun c => he ((tenPowLe_iff h _).mpr c)⟩

theorem logb_ten_two_mem : (301029 / 1000000 : ℝ) ≤ Real.logb 10 2 ∧ Real.logb 10 2 ≤ 301031 / 1000000 := by
  have h₁ : (10 : ℝ) ^ (643 : ℕ) ≤ 2 ^ (2136 : ℕ) := by exact_mod_cast (by decide +kernel : 10 ^ 643 ≤ 2 ^ 2136)
  have h₂ : (2 : ℝ) ^ (485 : ℕ) ≤ 10 ^ (146 : ℕ) := by exact_mod_cast (by decide +kernel : 2 ^ 485 ≤ 10 ^ 146)
  have g₁ := Real.logb_le_logb_of_le (b := 10) (by norm_num) (by positivity) h₁
  have g₂ := Real.logb_le_logb_of_le (b := 10) (by norm_num) (by positivity) h₂
  rw [Real.logb_pow, Real.logb_pow, Real.logb_self_eq_one (by norm_num)] at g₁ g₂
  constructor <;> (push_cast at g₁ g₂; linarith)

theorem intDiv_bounds (k : Int) {c : Int} (hc : 0 < c) : (k : ℝ) / c - 1 ≤ ((k / c : Int) : ℝ) ∧ ((k / c : Int) : ℝ) ≤ k / c := by
  have hc' : (0 : ℝ) < c := by exact_mod_cast hc
  have h₁ : ((k / c : Int) : ℝ) * c ≤ k := by exact_mod_cast Int.ediv_mul_le k hc.ne'
  have h₂ : (k : ℝ) < (((k / c : Int) : ℝ) + 1) * c := by exact_mod_cast Int.lt_ediv_add_one_mul_self k hc
  exact ⟨by rw [sub_le_iff_le_add, div_le_iff₀ hc']; exact h₂.le, by rwa [le_div_iff₀ hc']⟩

/-- The binary logarithms of a ratio bound its decimal one. -/
theorem logb_ratio_mem {num den : Nat} (hn : 0 < num) (h : 0 < den) :
    let k : Int := (Nat.log2 num : Int) - Nat.log2 den
    (k - 1) * Real.logb 10 2 ≤ Real.logb 10 (num / den) ∧ Real.logb 10 (num / den) ≤ (k + 1) * Real.logb 10 2 := by
  have bounds {n : Nat} (hn : 0 < n) : (Nat.log2 n : ℝ) * Real.logb 10 2 ≤ Real.logb 10 n ∧
      Real.logb 10 n ≤ ((Nat.log2 n : ℝ) + 1) * Real.logb 10 2 := by
    have h₁ : (2 : ℝ) ^ Nat.log2 n ≤ n := by exact_mod_cast Nat.log2_self_le hn.ne'
    have h₂ : (n : ℝ) ≤ 2 ^ (Nat.log2 n + 1) := by exact_mod_cast Nat.lt_log2_self.le
    have g₁ := Real.logb_le_logb_of_le (b := 10) (by norm_num) (by positivity) h₁
    have g₂ := Real.logb_le_logb_of_le (b := 10) (by norm_num) (by exact_mod_cast hn) h₂
    rw [Real.logb_pow] at g₁ g₂
    exact ⟨g₁, by simpa using g₂⟩
  have a := bounds hn
  have b := bounds h
  have e : Real.logb 10 (num / den : ℝ) = Real.logb 10 num - Real.logb 10 den :=
    Real.logb_div (by exact_mod_cast hn.ne') (by exact_mod_cast h.ne')
  intro k
  have hk : (k : ℝ) = Nat.log2 num - Nat.log2 den := by simp only [k]; push_cast; ring
  rw [e, hk]
  constructor <;> nlinarith [a.1, a.2, b.1, b.2]

theorem decade_spec {num den : Nat} (hn : 0 < num) (h : 0 < den) :
    (10 : ℝ) ^ decade num den ≤ num / den ∧ (num / den : ℝ) < 10 ^ (decade num den + 1) := by
  have hr : (0 : ℝ) < num / den := div_pos (by exact_mod_cast hn) (by exact_mod_cast h)
  obtain ⟨low, high⟩ := logb_ratio_mem hn h
  obtain ⟨l₁, l₂⟩ := logb_ten_two_mem
  unfold decade
  generalize (Nat.log2 num : Int) - Nat.log2 den = k at *
  generalize Real.logb 10 2 = L at *
  have habs : ((k.natAbs : Nat) : ℝ) = |(k : ℝ)| := by
    rw [← Int.cast_natCast, Int.natCast_natAbs, Int.cast_abs]
  have f₁ := intDiv_bounds (k.natAbs : Int) (c := 1000000) (by norm_num)
  have f₂ := intDiv_bounds (k.natAbs : Int) (c := 100000) (by norm_num)
  have f₃ := intDiv_bounds (k * 30103) (c := 100000) (by norm_num)
  rw [Int.cast_natCast, habs] at f₁ f₂
  push_cast at f₁ f₂ f₃
  have m := abs_le.mp (show |(k : ℝ) * (L - 30103 / 100000)| ≤ |(k : ℝ)| * (1 / 1000000) by
    rw [abs_mul]
    exact mul_le_mul_of_nonneg_left (abs_le.mpr ⟨by linarith, by linarith⟩) (abs_nonneg _))
  have hk := abs_nonneg (k : ℝ)
  have tenPow (e : Int) : (10 : ℝ) ^ e = 10 ^ (e : ℝ) := (Real.rpow_intCast 10 e).symm
  refine decadeFrom_spec h _ _ ?_ ?_
  · rw [tenPow, ← Real.le_logb_iff_rpow_le (by norm_num) hr]
    push_cast
    linarith [m.1, m.2, f₁.1, f₃.2]
  · rw [tenPow, ← Real.logb_lt_iff_lt_rpow (by norm_num) hr]
    push_cast
    linarith [m.1, m.2, f₁.2, f₂.1, f₃.1]

/-- The logarithm of a number of one digit before the point, in `N`-ths. -/
theorem logBits_eq {n d : Nat} (hd : 0 < d) (low : d ≤ n) (high : n < 10 * d) (N k : Nat) (hN : N ≠ 0) (hk : N ≤ 2 ^ k) :
    (logBits (n ^ N) (d ^ N) k 0 : Int) = ⌊N * Real.logb 10 (n / d)⌋ := by
  obtain ⟨t₁, t₂⟩ := logBits_spec (n ^ N) (d ^ N) k 0
    (by rw [pow_zero, one_mul]; exact Nat.pow_le_pow_left low _)
    (by
      calc n ^ N < (10 * d) ^ N := Nat.pow_lt_pow_left high hN
        _ = 10 ^ N * d ^ N := mul_pow ..
        _ ≤ 10 ^ (0 + 2 ^ k) * d ^ N := Nat.mul_le_mul_right _ (Nat.pow_le_pow_right (by norm_num) (by omega)))
  generalize logBits (n ^ N) (d ^ N) k 0 = t at *
  have hdR : (0 : ℝ) < d := by exact_mod_cast hd
  have hnR : (0 : ℝ) < n := by exact_mod_cast hd.trans_le low
  have logs : N * Real.logb 10 (n / d : ℝ) = Real.logb 10 (n ^ N) - Real.logb 10 (d ^ N) := by
    rw [Real.logb_div hnR.ne' hdR.ne', Real.logb_pow, Real.logb_pow]
    ring
  have tens (j : Nat) : Real.logb 10 ((10 : ℝ) ^ j * d ^ N) = j + Real.logb 10 (d ^ N) := by
    rw [Real.logb_mul (by positivity) (by positivity), Real.logb_pow, Real.logb_self_eq_one (by norm_num), mul_one]
  have g₁ := Real.logb_le_logb_of_le (b := 10) (by norm_num) (by positivity)
    (show (10 : ℝ) ^ t * d ^ N ≤ n ^ N by exact_mod_cast t₁)
  have g₂ := Real.logb_lt_logb (b := 10) (by norm_num) (by positivity)
    (show (n : ℝ) ^ N < 10 ^ (t + 1) * d ^ N by exact_mod_cast t₂)
  rw [tens] at g₁ g₂
  symm
  rw [Int.floor_eq_iff, logs]
  push_cast at g₂ ⊢
  constructor <;> linarith

/-- `floorLog` is the floor of 20000 times the decimal logarithm. -/
theorem floorLog_eq {num den : Nat} (hn : 0 < num) (h : 0 < den) :
    floorLog num den = ⌊20000 * Real.logb 10 (num / den)⌋ := by
  obtain ⟨d₁, d₂⟩ := decade_spec hn h
  have hD : (0 : ℝ) < den := by exact_mod_cast h
  have hN : (0 : ℝ) < num := by exact_mod_cast hn
  unfold floorLog
  generalize decade num den = e at *
  set n : Nat := if 0 ≤ e then num else num * 10 ^ (-e).toNat with hn'
  set d : Nat := if 0 ≤ e then den * 10 ^ e.toNat else den with hd'
  have hd : 0 < d := by rw [hd']; split <;> positivity
  have hdR : (0 : ℝ) < d := by exact_mod_cast hd
  have hp : (0 : ℝ) < 10 ^ e := by positivity
  have hnd : (n : ℝ) = num / den / 10 ^ e * d := by
    rw [hn', hd']
    split
    · next he =>
      obtain ⟨k, rfl⟩ := Int.eq_ofNat_of_zero_le he
      push_cast
      rw [Int.toNat_natCast, zpow_natCast]
      field_simp
    · next he =>
      obtain ⟨k, hk⟩ := Int.eq_ofNat_of_zero_le (show 0 ≤ -e by omega)
      obtain rfl : e = -(k : Int) := by omega
      push_cast
      rw [neg_neg, Int.toNat_natCast, zpow_neg, zpow_natCast]
      field_simp
  have low : (d : ℝ) ≤ n := by
    rw [hnd]
    exact le_mul_of_one_le_left hdR.le ((one_le_div hp).mpr d₁)
  have high : (n : ℝ) < 10 * d := by
    rw [hnd]
    refine mul_lt_mul_of_pos_right ?_ hdR
    rw [div_lt_iff₀ hp, mul_comm, ← zpow_add_one₀ (by norm_num)]
    exact d₂
  have key : Real.logb 10 (num / den : ℝ) = e + Real.logb 10 (n / d) := by
    have : (num / den : ℝ) = 10 ^ (e : ℝ) * (n / d) := by rw [hnd, Real.rpow_intCast]; field_simp
    rw [this, Real.logb_mul (by positivity) (div_pos (hdR.trans_le low) hdR).ne', Real.logb_rpow (by norm_num) (by norm_num)]
  rw [key, mul_add, show (20000 : ℝ) * (e : ℝ) = ((20000 * e : Int) : ℝ) by push_cast; ring, Int.floor_intCast_add]
  have g := logBits_eq hd (n := n) (by exact_mod_cast low) (by exact_mod_cast high) 20000 15 (by norm_num) (by norm_num)
  rw [Nat.cast_ofNat] at g
  exact congrArg (20000 * e + ·) g

section
open Polynomial

/-! ### The field of the twentieth root of ten -/

theorem irreducible_root : Irreducible (X ^ 20 - C 10 : Polynomial ℚ) := by
  have hm : (X ^ 20 - C 10 : Polynomial ℤ).Monic := monic_X_pow_sub_C 10 (by norm_num)
  have h : Irreducible (X ^ 20 - C 10 : Polynomial ℤ) := by
    have hd : (X ^ 20 - C 10 : Polynomial ℤ).natDegree = 20 := natDegree_X_pow_sub_C
    refine irreducible_of_eisenstein_criterion (P := Ideal.span {(2 : ℤ)})
      ((Ideal.span_singleton_prime (by norm_num)).mpr Int.prime_two) ?_ ?_ ?_ ?_ hm.isPrimitive
    · rw [hm.leadingCoeff, Ideal.mem_span_singleton]; norm_num
    · intro n hn
      rw [degree_eq_natDegree hm.ne_zero, hd] at hn
      have hn' : n < 20 := by exact_mod_cast hn
      rw [Ideal.mem_span_singleton, coeff_sub, coeff_X_pow, if_neg (by omega), coeff_C]
      split <;> norm_num
    · rw [degree_eq_natDegree hm.ne_zero, hd]; norm_num
    · rw [Ideal.span_singleton_pow, Ideal.mem_span_singleton, coeff_sub, coeff_X_pow, if_neg (by norm_num), coeff_C_zero]
      norm_num
  have := (hm.irreducible_iff_irreducible_map_fraction_map (K := ℚ)).mp h
  rwa [Polynomial.map_sub, Polynomial.map_pow, map_X, show (C (10 : ℤ) : Polynomial ℤ).map (algebraMap ℤ ℚ) = C 10 by
    rw [map_C]; norm_num] at this

/-- A combination of the powers of the twentieth root of ten with whole coefficients, not all 0, is far from 0. -/
theorem one_le_combination {q : ℝ} (h20 : q ^ 20 = 10) (c : ℕ → ℤ) (hc : ∃ i < 20, c i ≠ 0) :
    1 ≤ |∑ i ∈ Finset.range 20, (c i : ℝ) * q ^ i| * (10 * ∑ i ∈ Finset.range 20, |(c i : ℝ)|) ^ 19 := by
  have : Fact (Irreducible (X ^ 20 - C 10 : Polynomial ℚ)) := ⟨irreducible_root⟩
  let f : Polynomial ℚ := X ^ 20 - C 10
  have hfm : f.Monic := monic_X_pow_sub_C 10 (by norm_num)
  have hfd : f.natDegree = 20 := natDegree_X_pow_sub_C
  let K := AdjoinRoot f
  have : FiniteDimensional ℚ K := (AdjoinRoot.powerBasis hfm.ne_zero).finite
  let α : K := AdjoinRoot.root f
  let x : K := ∑ i ∈ Finset.range 20, (c i : K) * α ^ i
  have hα : α ^ 20 = 10 := by
    have := AdjoinRoot.eval₂_root f
    simp only [f, eval₂_sub, eval₂_pow, eval₂_X, eval₂_C] at this
    have h := sub_eq_zero.mp this
    rw [h]; simp
  have hx : x ≠ 0 := by
    intro h0
    let P : Polynomial ℚ := ∑ i ∈ Finset.range 20, C (c i : ℚ) * X ^ i
    have hP : AdjoinRoot.mk f P = 0 := by
      rw [← h0]
      simp [P, x, α]
    have hdeg : P.degree < f.degree := by
      rw [degree_eq_natDegree hfm.ne_zero, hfd]
      refine lt_of_le_of_lt (degree_sum_le _ _) ((Finset.sup_lt_iff (by exact WithBot.bot_lt_coe 20)).mpr fun i hi => ?_)
      exact lt_of_le_of_lt (degree_C_mul_X_pow_le i _) (by exact_mod_cast Finset.mem_range.mp hi)
    have hP0 : P = 0 := eq_zero_of_dvd_of_degree_lt (AdjoinRoot.mk_eq_zero.mp hP) hdeg
    obtain ⟨i, hi, hci⟩ := hc
    have := congrArg (fun p => p.coeff i) hP0
    simp only [P, finsetSum_coeff, coeff_C_mul, coeff_X_pow, coeff_zero, mul_ite, mul_one, mul_zero] at this
    rw [Finset.sum_ite_eq, if_pos (Finset.mem_range.mpr hi)] at this
    exact hci (by exact_mod_cast this)
  have hint : IsIntegral ℤ x := by
    refine IsIntegral.sum _ fun i _ => IsIntegral.mul (isIntegral_algebraMap (R := ℤ) (x := c i)) (IsIntegral.pow ?_ i)
    exact ⟨X ^ 20 - C 10, monic_X_pow_sub_C 10 (by norm_num), by simp [hα]⟩
  obtain ⟨n, hn⟩ := IsIntegrallyClosed.isIntegral_iff.mp (Algebra.isIntegral_norm ℚ hint)
  have hn0 : n ≠ 0 := by
    rintro rfl
    rw [map_zero] at hn
    exact hx (Algebra.norm_eq_zero_iff.mp hn.symm)
  have hprod := Algebra.norm_eq_prod_embeddings ℚ ℂ x
  let σ₀ : K →ₐ[ℚ] ℂ := AdjoinRoot.liftAlgHom f (Algebra.ofId ℚ ℂ) (q : ℂ) (by
    have h : (q : ℂ) ^ 20 = 10 := by exact_mod_cast congrArg Complex.ofReal h20
    simp [f, h])
  have hval (σ : K →ₐ[ℚ] ℂ) : σ x = ∑ i ∈ Finset.range 20, (c i : ℂ) * σ α ^ i := by
    rw [map_sum]
    refine Finset.sum_congr rfl fun i _ => ?_
    rw [map_mul, map_pow]
    congr 1
    exact map_intCast σ (c i)
  have hσ₀ : ‖σ₀ x‖ = |∑ i ∈ Finset.range 20, (c i : ℝ) * q ^ i| := by
    have hr : σ₀ α = (q : ℂ) := AdjoinRoot.liftAlgHom_root ..
    rw [← Real.norm_eq_abs, ← Complex.norm_real, hval, hr]
    push_cast
    rfl
  have hσ (σ : K →ₐ[ℚ] ℂ) : ‖σ x‖ ≤ 10 * ∑ i ∈ Finset.range 20, |(c i : ℝ)| := by
    have hr : ‖σ α‖ ^ 20 = 10 := by
      rw [← norm_pow, ← map_pow, hα, map_ofNat]; norm_num
    have h1 : 1 ≤ ‖σ α‖ := by
      by_contra h
      have := pow_le_one₀ (n := 20) (norm_nonneg (σ α)) (not_le.mp h).le
      linarith
    rw [hval]
    refine (norm_sum_le _ _).trans ?_
    rw [Finset.mul_sum]
    refine Finset.sum_le_sum fun i hi => ?_
    have h2 : ‖σ α‖ ^ i ≤ 10 := hr ▸ pow_le_pow_right₀ h1 (Finset.mem_range.mp hi).le
    rw [norm_mul, norm_pow, Complex.norm_intCast, mul_comm]
    exact mul_le_mul_of_nonneg_right h2 (abs_nonneg _)
  classical
  have hcard : (Finset.univ.erase σ₀).card = 19 := by
    rw [Finset.card_erase_of_mem (Finset.mem_univ _), Finset.card_univ, AlgHom.card ℚ K ℂ,
      (AdjoinRoot.powerBasis hfm.ne_zero).finrank, AdjoinRoot.powerBasis_dim, hfd]
  have hn1 : (1 : ℝ) ≤ ‖algebraMap ℚ ℂ (Algebra.norm ℚ x)‖ := by
    rw [← hn, eq_intCast, map_intCast, Complex.norm_intCast]
    exact_mod_cast Int.one_le_abs hn0
  rw [hprod, ← Finset.mul_prod_erase _ _ (Finset.mem_univ σ₀), norm_mul, hσ₀] at hn1
  refine hn1.trans (mul_le_mul_of_nonneg_left ?_ (abs_nonneg _))
  rw [norm_prod]
  refine (Finset.prod_le_prod (fun _ _ => norm_nonneg _) fun σ _ => hσ σ).trans ?_
  rw [Finset.prod_const, hcard]

end

/-! ### Combinations of the powers of the twentieth root of ten -/

/-- The number that coordinates stand for over the powers of `q`, from the place `k` on. -/
noncomputable def combination (q : ℝ) : ℕ → List Int → ℝ
  | _, [] => 0
  | k, d :: ds => d * q ^ k + combination q (k + 1) ds

theorem combination_eq_sum (q : ℝ) (ds : List Int) (k n : ℕ) (h : ds.length ≤ n) :
    combination q k ds = ∑ i ∈ Finset.range n, (ds.getD i 0 : ℝ) * q ^ (k + i) := by
  induction ds generalizing k n with
  | nil => simp [combination]
  | cons d ds ih =>
    obtain ⟨n, rfl⟩ : ∃ m, n = m + 1 := ⟨n - 1, by simp at h; omega⟩
    rw [combination, ih (k + 1) n (by simpa using h), Finset.sum_range_succ', add_comm]
    simp only [List.getD_cons_succ, List.getD_cons_zero, Nat.add_zero, Nat.add_assoc, Nat.add_comm 1]

theorem powerOfQ_spec {q : ℝ} (hq : 0 < q) (h20 : q ^ 20 = 10) (digits : ℕ) {i : ℕ} (hi : i ≤ 20) :
    (powerOfQ digits i : ℝ) ≤ q ^ i * 10 ^ digits ∧ q ^ i * 10 ^ digits < powerOfQ digits i + 1 := by
  obtain ⟨r₁, r₂⟩ := rootBits_spec (10 ^ (i + 20 * digits)) (4 * (digits + 1)) 0 (by simp) (by
    calc 10 ^ (i + 20 * digits) ≤ 10 ^ (20 * (digits + 1)) := Nat.pow_le_pow_right (by norm_num) (by omega)
      _ = (10 ^ (digits + 1)) ^ 20 := by rw [← pow_mul]; ring_nf
      _ < (16 ^ (digits + 1)) ^ 20 := Nat.pow_lt_pow_left (Nat.pow_lt_pow_left (by norm_num) (by omega)) (by norm_num)
      _ = (0 + 2 ^ (4 * (digits + 1))) ^ 20 := by rw [pow_mul 2 4]; norm_num)
  have e : ((10 : ℝ) ^ (i + 20 * digits)) = (q ^ i * 10 ^ digits) ^ 20 := by
    rw [mul_pow, ← pow_mul, mul_comm i, pow_mul, h20, pow_add, ← pow_mul, mul_comm digits]
  have hp : 0 ≤ q ^ i * 10 ^ digits := by positivity
  change 10 ^ (i + 20 * digits) < (powerOfQ digits i + 1) ^ 20 at r₂
  change powerOfQ digits i ^ 20 ≤ 10 ^ (i + 20 * digits) at r₁
  generalize powerOfQ digits i = r at *
  constructor
  · refine le_of_pow_le_pow_left₀ (n := 20) (by norm_num) hp ?_
    rw [← e]
    exact_mod_cast r₁
  · refine lt_of_pow_lt_pow_left₀ 20 (Nat.cast_add_one_pos r).le ?_
    have g : ((10 ^ (i + 20 * digits) : ℕ) : ℝ) < (((r + 1) ^ 20 : ℕ) : ℝ) := Nat.cast_lt.mpr r₂
    rw [← e]
    push_cast at g
    exact g

/-- `evalAt` is the number times a power of ten, up to the sum of the magnitudes. -/
theorem evalAt_error {q : ℝ} (hq : 0 < q) (h20 : q ^ 20 = 10) (digits : ℕ) (ds : List Int) (k : ℕ) (h : k + ds.length ≤ 20) :
    |(evalAt digits k ds : ℝ) - combination q k ds * 10 ^ digits| ≤ ((ds.map Int.natAbs).sum : ℕ) := by
  induction ds generalizing k with
  | nil => simp [evalAt, combination]
  | cons d ds ih =>
    simp only [List.length_cons] at h
    have := ih (k + 1) (by omega)
    obtain ⟨p₁, p₂⟩ := powerOfQ_spec hq h20 digits (i := k) (by omega)
    have e : ((if d = 0 then 0 else d * powerOfQ digits k : Int) : ℝ) = d * powerOfQ digits k := by
      split <;> simp_all
    have first : |(d : ℝ) * powerOfQ digits k - d * (q ^ k * 10 ^ digits)| ≤ (d.natAbs : ℝ) := by
      rw [← mul_sub, abs_mul, Nat.cast_natAbs, Int.cast_abs]
      exact mul_le_of_le_one_right (abs_nonneg _) (abs_le.mpr ⟨by linarith, by linarith⟩)
    simp only [evalAt, combination, List.map_cons, List.sum_cons]
    push_cast at *
    rw [e]
    calc _ = |((d : ℝ) * powerOfQ digits k - d * (q ^ k * 10 ^ digits))
          + ((evalAt digits (k + 1) ds : ℝ) - combination q (k + 1) ds * 10 ^ digits)| := by ring_nf
      _ ≤ _ := (abs_add_le _ _).trans (add_le_add first this)

theorem sum_natAbs_eq (ds : List Int) (n : ℕ) (h : ds.length ≤ n) :
    (((ds.map Int.natAbs).sum : ℕ) : ℝ) = ∑ i ∈ Finset.range n, |(ds.getD i 0 : ℝ)| := by
  induction ds generalizing n with
  | nil => simp
  | cons d ds ih =>
    obtain ⟨n, rfl⟩ : ∃ m, n = m + 1 := ⟨n - 1, by simp at h; omega⟩
    rw [Finset.sum_range_succ', List.map_cons, List.sum_cons, Nat.cast_add, ih n (by simpa using h), add_comm]
    simp [Nat.cast_natAbs]

/-- `combinationNonneg` decides the sign of a combination. -/
theorem combinationNonneg_iff {q : ℝ} (hq : 0 < q) (h20 : q ^ 20 = 10) (ds : List Int) (h : ds.length ≤ 20) :
    combinationNonneg ds = true ↔ 0 ≤ combination q 0 ds := by
  have hsum := combination_eq_sum q ds 0 20 h
  have habs := sum_natAbs_eq ds 20 h
  unfold combinationNonneg
  generalize hs : (ds.map Int.natAbs).sum = s at *
  dsimp only
  split
  · next h0 =>
    have zero : ∀ i ∈ Finset.range 20, |(ds.getD i 0 : ℝ)| = 0 :=
      (Finset.sum_eq_zero_iff_of_nonneg fun _ _ => abs_nonneg _).mp (by rw [← habs, h0, Nat.cast_zero])
    rw [hsum, Finset.sum_eq_zero fun i hi => by rw [abs_eq_zero.mp (zero i hi), zero_mul]]
    simp
  · next h0 =>
    have hne : ∃ i < 20, ds.getD i 0 ≠ 0 := by
      by_contra hall
      push Not at hall
      have : (s : ℝ) = 0 := by
        rw [habs]
        exact Finset.sum_eq_zero fun i hi => by rw [hall i (Finset.mem_range.mp hi)]; simp
      exact h0 (by exact_mod_cast this)
    have far := one_le_combination h20 (fun i => ds.getD i 0) hne
    have err := evalAt_error hq h20 (20 * (Nat.log2 s / 3 + 2)) ds 0 (by omega)
    rw [hs] at err
    rw [← habs] at far
    simp only [Nat.zero_add] at hsum
    rw [← hsum] at far
    generalize combination q 0 ds = v at *
    have hs8 : s < 8 ^ (Nat.log2 s / 3 + 1) := by
      calc s < 2 ^ (Nat.log2 s + 1) := Nat.lt_log2_self
        _ ≤ 2 ^ (3 * (Nat.log2 s / 3 + 1)) := Nat.pow_le_pow_right (by norm_num) (by omega)
        _ = 8 ^ (Nat.log2 s / 3 + 1) := by rw [pow_mul]; rfl
    generalize Nat.log2 s / 3 = m at *
    have hsR : (0 : ℝ) < s := by exact_mod_cast Nat.pos_of_ne_zero h0
    have big : (s : ℝ) * (10 * s) ^ 19 < 10 ^ (20 * (m + 2)) := by
      have h8 : (s : ℝ) ^ 20 < (8 ^ (m + 1)) ^ 20 :=
        pow_lt_pow_left₀ (by exact_mod_cast hs8) hsR.le (by norm_num)
      have h10 : ((8 : ℝ) ^ (m + 1)) ^ 20 ≤ (10 ^ (m + 1)) ^ 20 := by gcongr; norm_num
      calc (s : ℝ) * (10 * s) ^ 19 = 10 ^ 19 * s ^ 20 := by ring
        _ < 10 ^ 19 * (10 ^ (m + 1)) ^ 20 := mul_lt_mul_of_pos_left (h8.trans_le h10) (by positivity)
        _ ≤ 10 ^ 20 * (10 ^ (m + 1)) ^ 20 := by gcongr <;> norm_num
        _ = 10 ^ (20 * (m + 2)) := by rw [← pow_mul, ← pow_add]; ring_nf
    have wide : (s : ℝ) < |v| * 10 ^ (20 * (m + 2)) := by
      have hp : (0 : ℝ) < (10 * s) ^ 19 := by positivity
      have hv : 0 < |v| := by
        by_contra hv
        have : |v| = 0 := le_antisymm (not_lt.mp hv) (abs_nonneg _)
        rw [this, zero_mul] at far
        linarith
      calc (s : ℝ) ≤ s * (|v| * (10 * s) ^ 19) := le_mul_of_one_le_right hsR.le far
        _ = |v| * (s * (10 * s) ^ 19) := by ring
        _ < |v| * 10 ^ (20 * (m + 2)) := mul_lt_mul_of_pos_left big hv
    rw [decide_eq_true_eq]
    generalize evalAt _ _ _ = E at *
    have bounds := abs_le.mp err
    constructor
    · intro hE
      by_contra hv
      rw [abs_of_neg (not_le.mp hv)] at wide
      have : (0 : ℝ) ≤ E := by exact_mod_cast hE
      linarith
    · intro hv
      rw [abs_of_nonneg hv] at wide
      have : (0 : ℝ) ≤ E := by linarith
      exact_mod_cast this

/-! ### The arithmetic of coordinates -/

/-- The number that 20 coordinates stand for over the powers of `q`. -/
noncomputable def coordValue (q : ℝ) (cs : List Nat) : ℝ := ∑ i ∈ Finset.range 20, (cs.getD i 0 : ℝ) * q ^ i

theorem combination_natCast (q : ℝ) (cs : List Nat) (h : cs.length ≤ 20) :
    combination q 0 (cs.map fun (c : Nat) => (c : Int)) = coordValue q cs := by
  rw [combination_eq_sum q _ 0 20 (by simpa using h)]
  refine Finset.sum_congr rfl fun i _ => ?_
  rw [Nat.zero_add]
  congr 1
  rw [List.getD_eq_getElem?_getD, List.getD_eq_getElem?_getD, List.getElem?_map]
  cases cs[i]? <;> simp

theorem getD_range_map (f : ℕ → ℕ) {n i : ℕ} (h : i < n) : ((List.range n).map f).getD i 0 = f i := by
  simp [List.getD_eq_getElem?_getD, h]

theorem list_range_sum (f : ℕ → ℕ) (n : ℕ) : ((List.range n).map f).sum = ∑ i ∈ Finset.range n, f i := by
  induction n with
  | zero => rfl
  | succ n ih => rw [List.range_succ, List.map_append, List.sum_append, ih, Finset.sum_range_succ]; simp

theorem mulCoordinates_value {q : ℝ} (h20 : q ^ 20 = 10) (a b : List Nat) :
    coordValue q (mulCoordinates a b) = coordValue q a * coordValue q b := by
  let t (i k : ℕ) : ℕ := if i ≤ k then a.getD i 0 * b.getD (k - i) 0 else 10 * (a.getD i 0 * b.getD (20 + k - i) 0)
  have row : ∀ i ∈ Finset.range 20, ∑ k ∈ Finset.range 20, (t i k : ℝ) * q ^ k = a.getD i 0 * q ^ i * coordValue q b := by
    intro i hi
    have hi' : i ≤ 20 := (Finset.mem_range.mp hi).le
    obtain ⟨j, hj⟩ := Nat.exists_eq_add_of_le hi'
    have lhs := Finset.sum_range_add (fun k => (t i k : ℝ) * q ^ k) i j
    have rhs := Finset.sum_range_add (fun k => (b.getD k 0 : ℝ) * q ^ k) j i
    rw [← hj] at lhs
    rw [Nat.add_comm, ← hj] at rhs
    rw [lhs, coordValue, rhs, mul_add, add_comm, Finset.mul_sum, Finset.mul_sum]
    congr 1
    · refine Finset.sum_congr rfl fun k _ => ?_
      simp only [t, if_pos (Nat.le_add_right i k), Nat.add_sub_cancel_left]
      push_cast
      rw [pow_add]
      ring
    · refine Finset.sum_congr rfl fun k hk => ?_
      have hk' : k < i := Finset.mem_range.mp hk
      simp only [t, if_neg (not_le.mpr hk'), show 20 + k - i = j + k by omega]
      push_cast
      have : q ^ i * q ^ (j + k) = 10 * q ^ k := by rw [← pow_add, show i + (j + k) = 20 + k by omega, pow_add, h20]
      linear_combination (-(a.getD i 0 : ℝ) * b.getD (j + k) 0) * this
  calc coordValue q (mulCoordinates a b)
      = ∑ k ∈ Finset.range 20, ∑ i ∈ Finset.range 20, (t i k : ℝ) * q ^ k := by
        refine Finset.sum_congr rfl fun k hk => ?_
        unfold mulCoordinates
        rw [getD_range_map _ (Finset.mem_range.mp hk), list_range_sum]
        push_cast
        rw [Finset.sum_mul]
        refine Finset.sum_congr rfl fun i _ => ?_
        simp only [t]
        split <;> push_cast <;> rfl
    _ = ∑ i ∈ Finset.range 20, a.getD i 0 * q ^ i * coordValue q b := by
        rw [Finset.sum_comm]
        exact Finset.sum_congr rfl row
    _ = coordValue q a * coordValue q b := by rw [← Finset.sum_mul]; rfl

theorem powCoordinates_value {q : ℝ} (h20 : q ^ 20 = 10) (a : List Nat) (bits n : ℕ) (h : n < 2 ^ bits) :
    coordValue q (powCoordinates a bits n) = coordValue q a ^ n := by
  induction bits generalizing n with
  | zero =>
    obtain rfl : n = 0 := by simpa using h
    simp [powCoordinates, coordValue, Finset.sum_range_succ']
  | succ bits ih =>
    have half := ih (n / 2) (by rw [Nat.pow_succ] at h; omega)
    unfold powCoordinates
    dsimp only
    split
    · next e =>
      rw [mulCoordinates_value h20, half, ← pow_add]
      congr 1
      omega
    · next e =>
      rw [mulCoordinates_value h20, mulCoordinates_value h20, half, ← pow_add, ← pow_succ']
      congr 1
      omega

theorem powCoordinates_length (a : List Nat) (bits n : ℕ) : (powCoordinates a bits n).length = 20 := by
  cases bits with
  | zero => rfl
  | succ bits => unfold powCoordinates mulCoordinates; dsimp only; split <;> simp

theorem sum_range_mul (f : ℕ → ℝ) (n k : ℕ) :
    ∑ b ∈ Finset.range (n * k), f b = ∑ j ∈ Finset.range k, ∑ i ∈ Finset.range n, f (n * j + i) := by
  induction k with
  | zero => simp
  | succ k ih => rw [Nat.mul_succ, Finset.sum_range_add, ih, Finset.sum_range_succ]

theorem coordinates_value {q : ℝ} (h20 : q ^ 20 = 10) (counts : List Nat) :
    coordValue q (coordinates counts) = ∑ b ∈ Finset.range 160, (counts.getD b 0 : ℝ) * q ^ b := by
  rw [show 160 = 20 * 8 from rfl, sum_range_mul, Finset.sum_comm]
  refine Finset.sum_congr rfl fun i hi => ?_
  unfold coordinates
  rw [getD_range_map _ (Finset.mem_range.mp hi), list_range_sum]
  push_cast
  rw [Finset.sum_mul]
  refine Finset.sum_congr rfl fun k _ => ?_
  rw [pow_add, pow_mul, h20]
  ring

theorem coordinates_length (counts : List Nat) : (coordinates counts).length = 20 := by simp [coordinates]

/-! ### The mean weight in two-hundredths of a code -/

/-- `meanReaches` compares the level of a mean weight, in two-hundredths of a code, with a number. -/
theorem meanReaches_iff {q : ℝ} (hq : 0 < q) (h20 : q ^ 20 = 10) {n : ℕ} (hn : 0 < n) (cs : List Nat) (t : Int)
    (hv : (n : ℝ) ≤ coordValue q cs) :
    meanReaches n cs t = true ↔ (t : ℝ) ≤ 20000 * Real.logb 10 (coordValue q cs / n) - 139500 := by
  have hnR : (0 : ℝ) < n := by exact_mod_cast hn
  have hV : 0 < coordValue q cs := hnR.trans_le hv
  unfold meanReaches
  split
  · next ht =>
    have : 0 ≤ Real.logb 10 (coordValue q cs / n) :=
      Real.logb_nonneg (by norm_num) ((one_le_div hnR).mpr hv)
    have ht' : (t : ℝ) + 139500 < 0 := by exact_mod_cast ht
    simp only [true_iff]
    linarith
  · next ht =>
    obtain ⟨T, hT⟩ := Int.eq_ofNat_of_zero_le (not_lt.mp ht)
    have hT' : (t : ℝ) + 139500 = T := by exact_mod_cast hT
    rw [hT, Int.toNat_natCast, show (t : ℝ) = T - 139500 by linarith]
    have hlen := powCoordinates_length cs 15 20000
    have value := powCoordinates_value h20 cs 15 20000 (by norm_num)
    generalize hP : powCoordinates cs 15 20000 = P at *
    generalize hN : (20000 : ℕ) = N at *
    have hNR : (20000 : ℝ) = N := by rw [← hN]; norm_num
    rw [combinationNonneg_iff hq h20 _ (by simp [hlen])]
    have diff : combination q 0 (P.mapIdx fun i (c : Nat) => (c : Int) - (if i = 0 then (n ^ N * 10 ^ T : ℕ) else 0 : Int))
        = coordValue q cs ^ N - n ^ N * 10 ^ T := by
      rw [combination_eq_sum q _ 0 20 (by simp [hlen]), ← value]
      obtain ⟨p, P', rfl⟩ : ∃ p P', P = p :: P' := List.exists_cons_of_length_pos (by omega)
      rw [coordValue, show (20 : ℕ) = 19 + 1 from rfl, Finset.sum_range_succ' _ 19, Finset.sum_range_succ' _ 19]
      simp only [List.mapIdx_cons, List.getD_cons_succ, List.getD_cons_zero, if_true, Nat.zero_add, pow_zero, mul_one]
      push_cast
      rw [add_sub_assoc]
      congr 1
      refine Finset.sum_congr rfl fun i _ => ?_
      congr 1
      simp only [sub_zero]
      rw [List.getD_eq_getElem?_getD, List.getD_eq_getElem?_getD, List.getElem?_mapIdx]
      cases P'[i]? <;> simp
    rw [diff, sub_nonneg, sub_le_sub_iff_right, hNR, ← Real.logb_pow, div_pow,
      Real.le_logb_iff_rpow_le (by norm_num) (by positivity), Real.rpow_natCast, le_div_iff₀ (by positivity), mul_comm]

theorem meanCode_eq {q : ℝ} (hq : 0 < q) (h20 : q ^ 20 = 10) {n : ℕ} (hn : 0 < n) (cs : List Nat) (lo hi shift : Int)
    (hv : (n : ℝ) ≤ coordValue q cs)
    (hlo : lo ≤ ⌊20000 * Real.logb 10 (coordValue q cs / n) - 139500⌋)
    (hhi : ⌊20000 * Real.logb 10 (coordValue q cs / n) - 139500⌋ ≤ hi) (near : hi ≤ lo + 200) :
    meanCode n cs lo hi shift = (⌊20000 * Real.logb 10 (coordValue q cs / n) - 139500⌋ + shift) / 200 := by
  have reach (t : Int) := (meanReaches_iff hq h20 hn cs t hv).trans Int.le_floor.symm
  generalize ⌊20000 * Real.logb 10 (coordValue q cs / n) - 139500⌋ = v at *
  unfold meanCode
  dsimp only
  split
  · omega
  · split
    · next r => rw [reach] at r; omega
    · next r => rw [reach] at r; omega

/-! ### Codes as roundings -/

theorem floor_shift (x : ℝ) (s : Int) : (⌊200 * x⌋ + s) / 200 = ⌊x + s / 200⌋ := by
  symm
  rw [Int.floor_eq_iff]
  have h₁ := Int.floor_le (200 * x)
  have h₂ := Int.lt_floor_add_one (200 * x)
  generalize ⌊200 * x⌋ = a at *
  have e₁ : ((a + s) / 200) * 200 ≤ a + s := Int.ediv_mul_le _ (by norm_num)
  have e₂ : a + s + 1 ≤ ((a + s) / 200 + 1) * 200 := by omega
  generalize (a + s) / 200 = m at *
  have f₁ : (m : ℝ) * 200 ≤ a + s := by exact_mod_cast e₁
  have f₂ : (a : ℝ) + s + 1 ≤ (m + 1) * 200 := by exact_mod_cast e₂
  constructor <;> linarith

theorem pickCode_or (a b : Int) (e : ExactLevel) : pickCode a b e = a ∨ pickCode a b e = b := by
  unfold pickCode
  split
  · exact .inl rfl
  · split
    · exact .inl rfl
    · exact .inr rfl

/-- The code of an exact value is one of its two neighbours within a two-hundredth of a half, and the nearest elsewhere. -/
theorem codeOf_rounds (x : ℝ) (e : ExactLevel) :
    codeOf ⌊200 * x⌋ e = ⌊x + 1 / 2 + 1 / 200⌋ ∨ codeOf ⌊200 * x⌋ e = ⌊x + 1 / 2 - 1 / 200⌋ := by
  unfold codeOf
  rw [floor_shift, floor_shift]
  have e₁ : x + ((101 : Int) : ℝ) / 200 = x + 1 / 2 + 1 / 200 := by push_cast; ring
  have e₂ : x + ((99 : Int) : ℝ) / 200 = x + 1 / 2 - 1 / 200 := by push_cast; ring
  rw [e₁, e₂]
  exact pickCode_or _ _ _

/-- The code of a mean energy that is not 0. -/
theorem loudnessCode_pos {e : Rat} (h : 0 < e) :
    loudnessCode e = some (codeOf ⌊200 * (10 * (-(691 / 1000) + 10 * Real.logb 10 e))⌋ (.energy e)) := by
  have hn : 0 < e.num.toNat := by have := Rat.num_pos.mpr h; omega
  unfold loudnessCode
  rw [if_neg (not_le.mpr h)]
  dsimp only
  rw [floorLog_eq hn e.den_pos]
  have ratio : ((e.num.toNat : ℝ) / (e.den : ℝ)) = (e : ℝ) := by
    have h₁ : ((e.num.toNat : ℕ) : ℝ) = (e.num : ℝ) := by
      have : (e.num.toNat : Int) = e.num := Int.toNat_of_nonneg (Rat.num_nonneg.mpr h.le)
      exact_mod_cast congrArg (Int.cast (R := ℝ)) this
    rw [h₁, Rat.cast_def]
  rw [ratio]
  congr 2
  rw [show (200 * (10 * (-(691 / 1000) + 10 * Real.logb 10 (e : ℝ))) : ℝ)
    = 20000 * Real.logb 10 e - ((1382 : Int) : ℝ) by push_cast; ring, Int.floor_sub_intCast]

/-- The peak code of a largest magnitude that is not 0. -/
theorem peakCode_pos {m : Nat} (h : m ≠ 0) :
    peakCode m = some (codeOf ⌊200 * (10 * (20 * Real.logb 10 (m / 2 ^ 23)))⌋ (.peak m)) := by
  unfold peakCode
  rw [if_neg h]
  dsimp only
  rw [floorLog_eq (by positivity) (by positivity)]
  congr 3
  rw [show (((m ^ 2 : ℕ) : ℝ) / ((2 ^ 46 : ℕ) : ℝ)) = (m / 2 ^ 23) ^ 2 by push_cast; ring, Real.logb_pow]
  push_cast
  ring

/-! ### The gated integration -/

theorem one_le_root {q : ℝ} (hq : 0 < q) (h20 : q ^ 20 = 10) : 1 ≤ q := by
  by_contra h
  have := pow_le_one₀ (n := 20) hq.le (not_le.mp h).le
  linarith

/-- `evalAt` of whole numbers bounds what they stand for from below, and with their sum from above. -/
theorem evalAt_nat_bounds {q : ℝ} (hq : 0 < q) (h20 : q ^ 20 = 10) (digits : ℕ) (l : List Nat) (k : ℕ)
    (h : k + l.length ≤ 20) :
    let e : ℝ := evalAt digits k (l.map fun (c : Nat) => (c : Int))
    let v : ℝ := combination q k (l.map fun (c : Nat) => (c : Int)) * 10 ^ digits
    (l.sum : ℝ) * 10 ^ digits ≤ e ∧ e ≤ v ∧ v ≤ e + l.sum := by
  induction l generalizing k with
  | nil => simp [evalAt, combination]
  | cons c l ih =>
    simp only [List.length_cons] at h
    obtain ⟨i₁, i₂, i₃⟩ := ih (k + 1) (by omega)
    obtain ⟨p₁, p₂⟩ := powerOfQ_spec hq h20 digits (i := k) (by omega)
    have p₃ : (10 : ℝ) ^ digits ≤ powerOfQ digits k := by
      have h1 : (10 : ℝ) ^ digits ≤ q ^ k * 10 ^ digits :=
        le_mul_of_one_le_left (by positivity) (one_le_pow₀ (one_le_root hq h20))
      have h2 : ((10 ^ digits : ℕ) : ℝ) < ((powerOfQ digits k + 1 : ℕ) : ℝ) := by push_cast; linarith
      have h3 : 10 ^ digits ≤ powerOfQ digits k := Nat.lt_succ_iff.mp (Nat.cast_lt.mp h2)
      exact_mod_cast h3
    have e : ((if (c : Int) = 0 then 0 else (c : Int) * powerOfQ digits k : Int) : ℝ) = c * powerOfQ digits k := by
      split <;> simp_all
    have hc : (0 : ℝ) ≤ c := Nat.cast_nonneg c
    simp only [List.map_cons, evalAt, combination, List.sum_cons] at *
    push_cast at *
    rw [e]
    refine ⟨?_, ?_, ?_⟩ <;> nlinarith

theorem evalAt_coordinates_bounds {q : ℝ} (hq : 0 < q) (h20 : q ^ 20 = 10) (digits : ℕ) (cs : List Nat)
    (h : cs.length ≤ 20) :
    let e : ℝ := evalAt digits 0 (cs.map fun (c : Nat) => (c : Int))
    (cs.sum : ℝ) * 10 ^ digits ≤ e ∧ e ≤ coordValue q cs * 10 ^ digits ∧ coordValue q cs * 10 ^ digits ≤ e + cs.tail.sum := by
  rw [← combination_natCast q cs h]
  cases cs with
  | nil => simp [evalAt, combination]
  | cons c l =>
    obtain ⟨a₁, a₂, -⟩ := evalAt_nat_bounds hq h20 digits (c :: l) 0 (by simpa using h)
    obtain ⟨-, -, b₃⟩ := evalAt_nat_bounds hq h20 digits l 1 (by simp at h; omega)
    obtain ⟨p₁, p₂⟩ := powerOfQ_spec hq h20 digits (i := 0) (by norm_num)
    refine ⟨a₁, a₂, ?_⟩
    have exact0 : powerOfQ digits 0 = 10 ^ digits := by
      rw [pow_zero, one_mul] at p₁ p₂
      have h1 : powerOfQ digits 0 ≤ 10 ^ digits := by exact_mod_cast p₁
      have h2 : 10 ^ digits < powerOfQ digits 0 + 1 := by exact_mod_cast p₂
      omega
    have e : ((if (c : Int) = 0 then 0 else (c : Int) * powerOfQ digits 0 : Int) : ℝ) = c * 10 ^ digits := by
      rw [exact0]; split <;> simp_all
    simp only [List.map_cons, evalAt, combination, List.tail_cons] at *
    push_cast at *
    rw [e]
    nlinarith

theorem list_sum_eq_range (l : List Nat) (n : ℕ) (h : l.length ≤ n) : l.sum = ∑ i ∈ Finset.range n, l.getD i 0 := by
  induction l generalizing n with
  | nil => simp
  | cons d l ih =>
    obtain ⟨n, rfl⟩ : ∃ m, n = m + 1 := ⟨n - 1, by simp at h; omega⟩
    rw [Finset.sum_range_succ', List.sum_cons, ih n (by simpa using h), add_comm]
    simp

/-- The sum of the counts is at most the sum of their weights over that of bin 0. -/
theorem totalCount_le {q : ℝ} (hq : 0 < q) (h20 : q ^ 20 = 10) (counts : List Nat) (h : counts.length ≤ 160) :
    (totalCount counts : ℝ) ≤ coordValue q (coordinates counts) := by
  rw [coordinates_value h20, totalCount, list_sum_eq_range counts 160 h]
  push_cast
  exact Finset.sum_le_sum fun b _ => le_mul_of_one_le_right (Nat.cast_nonneg _) (one_le_pow₀ (one_le_root hq h20))

/-- The logarithm of a ratio just above 1, in 20000ths. -/
theorem logb_le_of_near {a b : ℝ} (ha : 0 < a) (h : b ≤ a * (1 + 1 / 20000)) (hb : 0 < b) :
    20000 * Real.logb 10 b ≤ 20000 * Real.logb 10 a + 1 := by
  have hlog : 1 ≤ Real.log 10 := by
    rw [Real.le_log_iff_exp_le (by norm_num)]
    exact Real.exp_one_lt_d9.le.trans (by norm_num)
  have h1 : Real.log b ≤ Real.log a + 1 / 20000 := by
    have := Real.log_le_log hb h
    rw [Real.log_mul ha.ne' (by norm_num)] at this
    have g := Real.log_le_sub_one_of_pos (show (0 : ℝ) < 1 + 1 / 20000 by norm_num)
    linarith
  unfold Real.logb
  rw [← mul_div_assoc, ← mul_div_assoc, div_le_iff₀ (by linarith), add_mul, div_mul_cancel₀ _ (by linarith)]
  linarith

/-- The code of the included counts: the level of their mean weight, rounded, and −697 at least. -/
theorem includedCode_rounds {q : ℝ} (hq : 0 < q) (h20 : q ^ 20 = 10) (included : List Nat) (hlen : included.length ≤ 160)
    (hn : 0 < totalCount included) :
    let x : ℝ := 100 * Real.logb 10 ((∑ b ∈ Finset.range 160, (included.getD b 0 : ℝ) * q ^ b) / totalCount included)
      - 1395 / 2
    ∃ k : Int, (k = ⌊x + 1 / 2 + 1 / 200⌋ ∨ k = ⌊x + 1 / 2 - 1 / 200⌋) ∧ includedCode included = max (-697) k := by
  intro x
  have hv := totalCount_le hq h20 included hlen
  have hcl := coordinates_length included
  simp only [x, ← coordinates_value h20]
  clear x
  unfold includedCode
  dsimp only
  generalize coordinates included = cs at *
  generalize totalCount included = n at *
  have hnR : (0 : ℝ) < n := by exact_mod_cast hn
  have hV : 0 < coordValue q cs := hnR.trans_le hv
  obtain ⟨b₁, b₂, b₃⟩ := evalAt_coordinates_bounds hq h20 integrationDigits cs hcl.le
  have hD : ((10 : ℝ) ^ integrationDigits) = 10 ^ 30 := rfl
  have hsum : 0 < cs.sum := by
    by_contra h0
    have h0' : cs.sum = 0 := by omega
    have hz : coordValue q cs = 0 := by
      refine Finset.sum_eq_zero fun i hi => ?_
      have hle : cs.getD i 0 ≤ cs.sum := by
        rw [list_sum_eq_range cs 20 hcl.le]
        exact Finset.single_le_sum (f := fun j => cs.getD j 0) (fun _ _ => Nat.zero_le _) hi
      rw [show cs.getD i 0 = 0 by omega]
      simp
    linarith
  have hsumR : (0 : ℝ) < cs.sum := by exact_mod_cast hsum
  generalize hE : evalAt integrationDigits 0 (cs.map fun (c : Nat) => (c : Int)) = E at *
  have hE0 : (0 : ℝ) < E := lt_of_lt_of_le (by positivity) b₁
  have hE0' : 0 < E := by exact_mod_cast hE0
  obtain ⟨B, rfl⟩ := Int.eq_ofNat_of_zero_le hE0'.le
  simp only [Int.toNat_natCast, Int.cast_natCast] at *
  have hB : 0 < B := by exact_mod_cast hE0
  have hden : 0 < n * 10 ^ integrationDigits := by positivity
  have htail : cs.tail.sum ≤ cs.sum := by cases cs <;> simp
  have htailR : (cs.tail.sum : ℝ) ≤ cs.sum := by exact_mod_cast htail
  rw [floorLog_eq hB hden, floorLog_eq (by omega) hden]
  have hdenR : (0 : ℝ) < ((n * 10 ^ integrationDigits : ℕ) : ℝ) := by exact_mod_cast hden
  have ratio : coordValue q cs / n = coordValue q cs * 10 ^ integrationDigits / ((n * 10 ^ integrationDigits : ℕ) : ℝ) := by
    push_cast
    rw [mul_div_mul_right _ _ (by positivity)]
  have hfloor (y : ℝ) : ⌊y⌋ - 139500 = ⌊y - 139500⌋ := by
    rw [show y - 139500 = y - ((139500 : Int) : ℝ) by push_cast; ring, Int.floor_sub_intCast]
  have up : 20000 * Real.logb 10 (coordValue q cs / n)
      ≤ 20000 * Real.logb 10 (((B + cs.tail.sum : ℕ) : ℝ) / ((n * 10 ^ integrationDigits : ℕ) : ℝ)) := by
    refine mul_le_mul_of_nonneg_left (Real.logb_le_logb_of_le (by norm_num) (by positivity) ?_) (by norm_num)
    rw [ratio]
    gcongr
    rw [Nat.cast_add]
    exact b₃
  have down : 20000 * Real.logb 10 ((B : ℝ) / ((n * 10 ^ integrationDigits : ℕ) : ℝ))
      ≤ 20000 * Real.logb 10 (coordValue q cs / n) := by
    refine mul_le_mul_of_nonneg_left (Real.logb_le_logb_of_le (by norm_num) (by positivity) ?_) (by norm_num)
    rw [ratio]
    gcongr
  have near : 20000 * Real.logb 10 (((B + cs.tail.sum : ℕ) : ℝ) / ((n * 10 ^ integrationDigits : ℕ) : ℝ))
      ≤ 20000 * Real.logb 10 ((B : ℝ) / ((n * 10 ^ integrationDigits : ℕ) : ℝ)) + 1 := by
    refine logb_le_of_near (by positivity) ?_ (by positivity)
    rw [div_mul_eq_mul_div]
    gcongr
    rw [Nat.cast_add]
    have : (cs.sum : ℝ) * 20000 ≤ B := le_trans (by rw [hD]; gcongr; norm_num) b₁
    linarith
  have lo' := Int.floor_le_floor (sub_le_sub_right down 139500)
  have hi' := Int.floor_le_floor (sub_le_sub_right up 139500)
  have near' := Int.floor_le_floor (sub_le_sub_right near 139500)
  rw [show ∀ y : ℝ, y + 1 - 139500 = (y - 139500) + 1 by intro y; ring, Int.floor_add_one] at near'
  rw [hfloor, hfloor]
  rw [meanCode_eq hq h20 hn cs _ _ 101 hv lo' hi' (by omega), meanCode_eq hq h20 hn cs _ _ 99 hv lo' hi' (by omega)]
  have e : 20000 * Real.logb 10 (coordValue q cs / n) - 139500
      = 200 * (100 * Real.logb 10 (coordValue q cs / n) - 1395 / 2) := by ring
  rw [e]
  refine ⟨_, ?_, rfl⟩
  exact codeOf_rounds _ _

/-- A bin is included when ten times its weight is at or above the mean weight. -/
theorem binIncluded_iff {q : ℝ} (hq : 0 < q) (h20 : q ^ 20 = 10) (n : ℕ) (cs : List Nat) (h : cs.length = 20) (b : ℕ) :
    binIncluded n cs b = true ↔ coordValue q cs ≤ 10 * n * q ^ b := by
  unfold binIncluded
  rw [combinationNonneg_iff hq h20 _ (by simp [h]), combination_eq_sum q _ 0 20 (by simp [h])]
  have hb : b % 20 < 20 := Nat.mod_lt _ (by norm_num)
  have split : ∀ i ∈ Finset.range 20,
      (((cs.mapIdx fun i (c : Nat) => (if i = b % 20 then (10 * n * 10 ^ (b / 20) : Nat) else 0 : Int) - (c : Int)).getD i 0 : Int) : ℝ)
        * q ^ (0 + i) = (if i = b % 20 then 10 * n * q ^ b else 0) - cs.getD i 0 * q ^ i := by
    intro i hi
    have hi' : i < cs.length := h ▸ Finset.mem_range.mp hi
    rw [List.getD_eq_getElem?_getD, List.getD_eq_getElem?_getD, List.getElem?_mapIdx, List.getElem?_eq_getElem hi', Nat.zero_add]
    simp only [Option.map_some, Option.getD_some]
    push_cast
    rw [sub_mul]
    congr 1
    split
    · next e =>
      subst e
      rw [show q ^ b = q ^ (20 * (b / 20) + b % 20) by rw [Nat.div_add_mod], pow_add, pow_mul, h20]
      ring
    · simp
  rw [Finset.sum_congr rfl split, Finset.sum_sub_distrib, Finset.sum_ite_eq', if_pos (Finset.mem_range.mpr hb),
    sub_nonneg]
  rfl

end Sys2Proof.Machine
end

