-- ==== Sys2Proof/Laws/State.lean ====
section
/-!
SUPPORT. What the shared operations leave as it was: one lemma for each field and update, so that no later proof unfolds
a record update.
-/

namespace Sys2Proof.Machine

namespace State

variable (s : State)

/-! #### Messages sent -/

@[simp] theorem send_station (ms : List Instr) :
    (s.send ms).station = s.station := rfl

@[simp] theorem send_lanes (ms : List Instr) :
    (s.send ms).lanes = s.lanes := rfl

@[simp] theorem send_views (ms : List Instr) :
    (s.send ms).views = s.views := rfl

@[simp] theorem send_map (ms : List Instr) :
    (s.send ms).map = s.map := rfl

@[simp] theorem send_sched (ms : List Instr) :
    (s.send ms).sched = s.sched := rfl

@[simp] theorem send_groups (ms : List Instr) :
    (s.send ms).groups = s.groups := rfl

@[simp] theorem send_meter (ms : List Instr) :
    (s.send ms).meter = s.meter := rfl

@[simp] theorem send_checker (ms : List Instr) :
    (s.send ms).checker = s.checker := rfl

@[simp] theorem send_compliance (ms : List Instr) :
    (s.send ms).compliance = s.compliance := rfl

@[simp] theorem send_store (ms : List Instr) :
    (s.send ms).store = s.store := rfl

@[simp] theorem send_recorder (ms : List Instr) :
    (s.send ms).recorder = s.recorder := rfl

@[simp] theorem send_holds (ms : List Instr) :
    (s.send ms).holds = s.holds := rfl

@[simp] theorem send_clips (ms : List Instr) :
    (s.send ms).clips = s.clips := rfl

@[simp] theorem send_archive (ms : List Instr) :
    (s.send ms).archive = s.archive := rfl

@[simp] theorem send_ports (ms : List Instr) :
    (s.send ms).ports = s.ports := rfl

@[simp] theorem send_router (ms : List Instr) :
    (s.send ms).router = s.router := rfl

@[simp] theorem send_bank (ms : List Instr) :
    (s.send ms).bank = s.bank := rfl

@[simp] theorem send_edges (ms : List Instr) :
    (s.send ms).edges = s.edges := rfl

@[simp] theorem send_openSpans (ms : List Instr) :
    (s.send ms).openSpans = s.openSpans := rfl

@[simp] theorem send_shares (ms : List Instr) :
    (s.send ms).shares = s.shares := rfl

@[simp] theorem send_pending (ms : List Instr) :
    (s.send ms).pending = s.pending := rfl

@[simp] theorem send_inFlight (ms : List Instr) : (s.send ms).inFlight = s.inFlight ++ ms := rfl

@[simp] theorem send_nil : s.send [] = s := by
  simp [send]

theorem send_send (a b : List Instr) : (s.send a).send b = s.send (a ++ b) := by
  simp [send, List.append_assoc]

/-! #### A message arrives -/

@[simp] theorem arrive_station (c : Instr) :
    (s.arrive c).station = s.station := rfl

@[simp] theorem arrive_lanes (c : Instr) :
    (s.arrive c).lanes = s.lanes := rfl

@[simp] theorem arrive_views (c : Instr) :
    (s.arrive c).views = s.views := rfl

@[simp] theorem arrive_map (c : Instr) :
    (s.arrive c).map = s.map := rfl

@[simp] theorem arrive_sched (c : Instr) :
    (s.arrive c).sched = s.sched := rfl

@[simp] theorem arrive_groups (c : Instr) :
    (s.arrive c).groups = s.groups := rfl

@[simp] theorem arrive_meter (c : Instr) :
    (s.arrive c).meter = s.meter := rfl

@[simp] theorem arrive_checker (c : Instr) :
    (s.arrive c).checker = s.checker := rfl

@[simp] theorem arrive_compliance (c : Instr) :
    (s.arrive c).compliance = s.compliance := rfl

@[simp] theorem arrive_store (c : Instr) :
    (s.arrive c).store = s.store := rfl

@[simp] theorem arrive_recorder (c : Instr) :
    (s.arrive c).recorder = s.recorder := rfl

@[simp] theorem arrive_holds (c : Instr) :
    (s.arrive c).holds = s.holds := rfl

@[simp] theorem arrive_clips (c : Instr) :
    (s.arrive c).clips = s.clips := rfl

@[simp] theorem arrive_archive (c : Instr) :
    (s.arrive c).archive = s.archive := rfl

@[simp] theorem arrive_ports (c : Instr) :
    (s.arrive c).ports = s.ports := rfl

@[simp] theorem arrive_router (c : Instr) :
    (s.arrive c).router = s.router := rfl

@[simp] theorem arrive_bank (c : Instr) :
    (s.arrive c).bank = s.bank := rfl

@[simp] theorem arrive_edges (c : Instr) :
    (s.arrive c).edges = s.edges := rfl

@[simp] theorem arrive_openSpans (c : Instr) :
    (s.arrive c).openSpans = s.openSpans := rfl

@[simp] theorem arrive_shares (c : Instr) :
    (s.arrive c).shares = s.shares := rfl

@[simp] theorem arrive_pending (c : Instr) :
    (s.arrive c).pending = s.pending := rfl

@[simp] theorem arrive_inFlight (c : Instr) : (s.arrive c).inFlight = s.inFlight.erase c := rfl

/-! #### A service's schedule -/

@[simp] theorem setSched_station (i : Svc) (x : ServiceSched) :
    (s.setSched i x).station = s.station := rfl

@[simp] theorem setSched_lanes (i : Svc) (x : ServiceSched) :
    (s.setSched i x).lanes = s.lanes := rfl

@[simp] theorem setSched_views (i : Svc) (x : ServiceSched) :
    (s.setSched i x).views = s.views := rfl

@[simp] theorem setSched_map (i : Svc) (x : ServiceSched) :
    (s.setSched i x).map = s.map := rfl

@[simp] theorem setSched_groups (i : Svc) (x : ServiceSched) :
    (s.setSched i x).groups = s.groups := rfl

@[simp] theorem setSched_meter (i : Svc) (x : ServiceSched) :
    (s.setSched i x).meter = s.meter := rfl

@[simp] theorem setSched_checker (i : Svc) (x : ServiceSched) :
    (s.setSched i x).checker = s.checker := rfl

@[simp] theorem setSched_compliance (i : Svc) (x : ServiceSched) :
    (s.setSched i x).compliance = s.compliance := rfl

@[simp] theorem setSched_store (i : Svc) (x : ServiceSched) :
    (s.setSched i x).store = s.store := rfl

@[simp] theorem setSched_recorder (i : Svc) (x : ServiceSched) :
    (s.setSched i x).recorder = s.recorder := rfl

@[simp] theorem setSched_holds (i : Svc) (x : ServiceSched) :
    (s.setSched i x).holds = s.holds := rfl

@[simp] theorem setSched_clips (i : Svc) (x : ServiceSched) :
    (s.setSched i x).clips = s.clips := rfl

@[simp] theorem setSched_archive (i : Svc) (x : ServiceSched) :
    (s.setSched i x).archive = s.archive := rfl

@[simp] theorem setSched_ports (i : Svc) (x : ServiceSched) :
    (s.setSched i x).ports = s.ports := rfl

@[simp] theorem setSched_router (i : Svc) (x : ServiceSched) :
    (s.setSched i x).router = s.router := rfl

@[simp] theorem setSched_bank (i : Svc) (x : ServiceSched) :
    (s.setSched i x).bank = s.bank := rfl

@[simp] theorem setSched_edges (i : Svc) (x : ServiceSched) :
    (s.setSched i x).edges = s.edges := rfl

@[simp] theorem setSched_openSpans (i : Svc) (x : ServiceSched) :
    (s.setSched i x).openSpans = s.openSpans := rfl

@[simp] theorem setSched_shares (i : Svc) (x : ServiceSched) :
    (s.setSched i x).shares = s.shares := rfl

@[simp] theorem setSched_inFlight (i : Svc) (x : ServiceSched) :
    (s.setSched i x).inFlight = s.inFlight := rfl

@[simp] theorem setSched_pending (i : Svc) (x : ServiceSched) :
    (s.setSched i x).pending = s.pending := rfl

/-! #### A service's meter -/

@[simp] theorem setMeter_station (i : Svc) (x : MeterSvc) :
    (s.setMeter i x).station = s.station := rfl

@[simp] theorem setMeter_lanes (i : Svc) (x : MeterSvc) :
    (s.setMeter i x).lanes = s.lanes := rfl

@[simp] theorem setMeter_views (i : Svc) (x : MeterSvc) :
    (s.setMeter i x).views = s.views := rfl

@[simp] theorem setMeter_map (i : Svc) (x : MeterSvc) :
    (s.setMeter i x).map = s.map := rfl

@[simp] theorem setMeter_sched (i : Svc) (x : MeterSvc) :
    (s.setMeter i x).sched = s.sched := rfl

@[simp] theorem setMeter_groups (i : Svc) (x : MeterSvc) :
    (s.setMeter i x).groups = s.groups := rfl

@[simp] theorem setMeter_checker (i : Svc) (x : MeterSvc) :
    (s.setMeter i x).checker = s.checker := rfl

@[simp] theorem setMeter_compliance (i : Svc) (x : MeterSvc) :
    (s.setMeter i x).compliance = s.compliance := rfl

@[simp] theorem setMeter_store (i : Svc) (x : MeterSvc) :
    (s.setMeter i x).store = s.store := rfl

@[simp] theorem setMeter_recorder (i : Svc) (x : MeterSvc) :
    (s.setMeter i x).recorder = s.recorder := rfl

@[simp] theorem setMeter_holds (i : Svc) (x : MeterSvc) :
    (s.setMeter i x).holds = s.holds := rfl

@[simp] theorem setMeter_clips (i : Svc) (x : MeterSvc) :
    (s.setMeter i x).clips = s.clips := rfl

@[simp] theorem setMeter_archive (i : Svc) (x : MeterSvc) :
    (s.setMeter i x).archive = s.archive := rfl

@[simp] theorem setMeter_ports (i : Svc) (x : MeterSvc) :
    (s.setMeter i x).ports = s.ports := rfl

@[simp] theorem setMeter_router (i : Svc) (x : MeterSvc) :
    (s.setMeter i x).router = s.router := rfl

@[simp] theorem setMeter_bank (i : Svc) (x : MeterSvc) :
    (s.setMeter i x).bank = s.bank := rfl

@[simp] theorem setMeter_edges (i : Svc) (x : MeterSvc) :
    (s.setMeter i x).edges = s.edges := rfl

@[simp] theorem setMeter_openSpans (i : Svc) (x : MeterSvc) :
    (s.setMeter i x).openSpans = s.openSpans := rfl

@[simp] theorem setMeter_shares (i : Svc) (x : MeterSvc) :
    (s.setMeter i x).shares = s.shares := rfl

@[simp] theorem setMeter_inFlight (i : Svc) (x : MeterSvc) :
    (s.setMeter i x).inFlight = s.inFlight := rfl

@[simp] theorem setMeter_pending (i : Svc) (x : MeterSvc) :
    (s.setMeter i x).pending = s.pending := rfl

/-! #### A service's checker -/

@[simp] theorem setChecker_station (i : Svc) (x : CheckerSvc) :
    (s.setChecker i x).station = s.station := rfl

@[simp] theorem setChecker_lanes (i : Svc) (x : CheckerSvc) :
    (s.setChecker i x).lanes = s.lanes := rfl

@[simp] theorem setChecker_views (i : Svc) (x : CheckerSvc) :
    (s.setChecker i x).views = s.views := rfl

@[simp] theorem setChecker_map (i : Svc) (x : CheckerSvc) :
    (s.setChecker i x).map = s.map := rfl

@[simp] theorem setChecker_sched (i : Svc) (x : CheckerSvc) :
    (s.setChecker i x).sched = s.sched := rfl

@[simp] theorem setChecker_groups (i : Svc) (x : CheckerSvc) :
    (s.setChecker i x).groups = s.groups := rfl

@[simp] theorem setChecker_meter (i : Svc) (x : CheckerSvc) :
    (s.setChecker i x).meter = s.meter := rfl

@[simp] theorem setChecker_compliance (i : Svc) (x : CheckerSvc) :
    (s.setChecker i x).compliance = s.compliance := rfl

@[simp] theorem setChecker_store (i : Svc) (x : CheckerSvc) :
    (s.setChecker i x).store = s.store := rfl

@[simp] theorem setChecker_recorder (i : Svc) (x : CheckerSvc) :
    (s.setChecker i x).recorder = s.recorder := rfl

@[simp] theorem setChecker_holds (i : Svc) (x : CheckerSvc) :
    (s.setChecker i x).holds = s.holds := rfl

@[simp] theorem setChecker_clips (i : Svc) (x : CheckerSvc) :
    (s.setChecker i x).clips = s.clips := rfl

@[simp] theorem setChecker_archive (i : Svc) (x : CheckerSvc) :
    (s.setChecker i x).archive = s.archive := rfl

@[simp] theorem setChecker_ports (i : Svc) (x : CheckerSvc) :
    (s.setChecker i x).ports = s.ports := rfl

@[simp] theorem setChecker_router (i : Svc) (x : CheckerSvc) :
    (s.setChecker i x).router = s.router := rfl

@[simp] theorem setChecker_bank (i : Svc) (x : CheckerSvc) :
    (s.setChecker i x).bank = s.bank := rfl

@[simp] theorem setChecker_edges (i : Svc) (x : CheckerSvc) :
    (s.setChecker i x).edges = s.edges := rfl

@[simp] theorem setChecker_openSpans (i : Svc) (x : CheckerSvc) :
    (s.setChecker i x).openSpans = s.openSpans := rfl

@[simp] theorem setChecker_shares (i : Svc) (x : CheckerSvc) :
    (s.setChecker i x).shares = s.shares := rfl

@[simp] theorem setChecker_inFlight (i : Svc) (x : CheckerSvc) :
    (s.setChecker i x).inFlight = s.inFlight := rfl

@[simp] theorem setChecker_pending (i : Svc) (x : CheckerSvc) :
    (s.setChecker i x).pending = s.pending := rfl

/-! #### A service's recorder -/

@[simp] theorem setRecorder_station (i : Svc) (x : RecorderSvc) :
    (s.setRecorder i x).station = s.station := rfl

@[simp] theorem setRecorder_lanes (i : Svc) (x : RecorderSvc) :
    (s.setRecorder i x).lanes = s.lanes := rfl

@[simp] theorem setRecorder_views (i : Svc) (x : RecorderSvc) :
    (s.setRecorder i x).views = s.views := rfl

@[simp] theorem setRecorder_map (i : Svc) (x : RecorderSvc) :
    (s.setRecorder i x).map = s.map := rfl

@[simp] theorem setRecorder_sched (i : Svc) (x : RecorderSvc) :
    (s.setRecorder i x).sched = s.sched := rfl

@[simp] theorem setRecorder_groups (i : Svc) (x : RecorderSvc) :
    (s.setRecorder i x).groups = s.groups := rfl

@[simp] theorem setRecorder_meter (i : Svc) (x : RecorderSvc) :
    (s.setRecorder i x).meter = s.meter := rfl

@[simp] theorem setRecorder_checker (i : Svc) (x : RecorderSvc) :
    (s.setRecorder i x).checker = s.checker := rfl

@[simp] theorem setRecorder_compliance (i : Svc) (x : RecorderSvc) :
    (s.setRecorder i x).compliance = s.compliance := rfl

@[simp] theorem setRecorder_store (i : Svc) (x : RecorderSvc) :
    (s.setRecorder i x).store = s.store := rfl

@[simp] theorem setRecorder_holds (i : Svc) (x : RecorderSvc) :
    (s.setRecorder i x).holds = s.holds := rfl

@[simp] theorem setRecorder_clips (i : Svc) (x : RecorderSvc) :
    (s.setRecorder i x).clips = s.clips := rfl

@[simp] theorem setRecorder_archive (i : Svc) (x : RecorderSvc) :
    (s.setRecorder i x).archive = s.archive := rfl

@[simp] theorem setRecorder_ports (i : Svc) (x : RecorderSvc) :
    (s.setRecorder i x).ports = s.ports := rfl

@[simp] theorem setRecorder_router (i : Svc) (x : RecorderSvc) :
    (s.setRecorder i x).router = s.router := rfl

@[simp] theorem setRecorder_bank (i : Svc) (x : RecorderSvc) :
    (s.setRecorder i x).bank = s.bank := rfl

@[simp] theorem setRecorder_edges (i : Svc) (x : RecorderSvc) :
    (s.setRecorder i x).edges = s.edges := rfl

@[simp] theorem setRecorder_openSpans (i : Svc) (x : RecorderSvc) :
    (s.setRecorder i x).openSpans = s.openSpans := rfl

@[simp] theorem setRecorder_shares (i : Svc) (x : RecorderSvc) :
    (s.setRecorder i x).shares = s.shares := rfl

@[simp] theorem setRecorder_inFlight (i : Svc) (x : RecorderSvc) :
    (s.setRecorder i x).inFlight = s.inFlight := rfl

@[simp] theorem setRecorder_pending (i : Svc) (x : RecorderSvc) :
    (s.setRecorder i x).pending = s.pending := rfl

/-! #### A port -/

@[simp] theorem setPort_station (p : PortNo) (x : Port) :
    (s.setPort p x).station = s.station := rfl

@[simp] theorem setPort_lanes (p : PortNo) (x : Port) :
    (s.setPort p x).lanes = s.lanes := rfl

@[simp] theorem setPort_views (p : PortNo) (x : Port) :
    (s.setPort p x).views = s.views := rfl

@[simp] theorem setPort_map (p : PortNo) (x : Port) :
    (s.setPort p x).map = s.map := rfl

@[simp] theorem setPort_sched (p : PortNo) (x : Port) :
    (s.setPort p x).sched = s.sched := rfl

@[simp] theorem setPort_groups (p : PortNo) (x : Port) :
    (s.setPort p x).groups = s.groups := rfl

@[simp] theorem setPort_meter (p : PortNo) (x : Port) :
    (s.setPort p x).meter = s.meter := rfl

@[simp] theorem setPort_checker (p : PortNo) (x : Port) :
    (s.setPort p x).checker = s.checker := rfl

@[simp] theorem setPort_compliance (p : PortNo) (x : Port) :
    (s.setPort p x).compliance = s.compliance := rfl

@[simp] theorem setPort_store (p : PortNo) (x : Port) :
    (s.setPort p x).store = s.store := rfl

@[simp] theorem setPort_recorder (p : PortNo) (x : Port) :
    (s.setPort p x).recorder = s.recorder := rfl

@[simp] theorem setPort_holds (p : PortNo) (x : Port) :
    (s.setPort p x).holds = s.holds := rfl

@[simp] theorem setPort_clips (p : PortNo) (x : Port) :
    (s.setPort p x).clips = s.clips := rfl

@[simp] theorem setPort_archive (p : PortNo) (x : Port) :
    (s.setPort p x).archive = s.archive := rfl

@[simp] theorem setPort_router (p : PortNo) (x : Port) :
    (s.setPort p x).router = s.router := rfl

@[simp] theorem setPort_bank (p : PortNo) (x : Port) :
    (s.setPort p x).bank = s.bank := rfl

@[simp] theorem setPort_edges (p : PortNo) (x : Port) :
    (s.setPort p x).edges = s.edges := rfl

@[simp] theorem setPort_openSpans (p : PortNo) (x : Port) :
    (s.setPort p x).openSpans = s.openSpans := rfl

@[simp] theorem setPort_shares (p : PortNo) (x : Port) :
    (s.setPort p x).shares = s.shares := rfl

@[simp] theorem setPort_inFlight (p : PortNo) (x : Port) :
    (s.setPort p x).inFlight = s.inFlight := rfl

@[simp] theorem setPort_pending (p : PortNo) (x : Port) :
    (s.setPort p x).pending = s.pending := rfl

/-! #### A port's notices -/

@[simp] theorem setNotices_station (p : PortNo) (x : PortNotices) :
    (s.setNotices p x).station = s.station := rfl

@[simp] theorem setNotices_lanes (p : PortNo) (x : PortNotices) :
    (s.setNotices p x).lanes = s.lanes := rfl

@[simp] theorem setNotices_views (p : PortNo) (x : PortNotices) :
    (s.setNotices p x).views = s.views := rfl

@[simp] theorem setNotices_map (p : PortNo) (x : PortNotices) :
    (s.setNotices p x).map = s.map := rfl

@[simp] theorem setNotices_sched (p : PortNo) (x : PortNotices) :
    (s.setNotices p x).sched = s.sched := rfl

@[simp] theorem setNotices_groups (p : PortNo) (x : PortNotices) :
    (s.setNotices p x).groups = s.groups := rfl

@[simp] theorem setNotices_meter (p : PortNo) (x : PortNotices) :
    (s.setNotices p x).meter = s.meter := rfl

@[simp] theorem setNotices_checker (p : PortNo) (x : PortNotices) :
    (s.setNotices p x).checker = s.checker := rfl

@[simp] theorem setNotices_compliance (p : PortNo) (x : PortNotices) :
    (s.setNotices p x).compliance = s.compliance := rfl

@[simp] theorem setNotices_store (p : PortNo) (x : PortNotices) :
    (s.setNotices p x).store = s.store := rfl

@[simp] theorem setNotices_recorder (p : PortNo) (x : PortNotices) :
    (s.setNotices p x).recorder = s.recorder := rfl

@[simp] theorem setNotices_holds (p : PortNo) (x : PortNotices) :
    (s.setNotices p x).holds = s.holds := rfl

@[simp] theorem setNotices_clips (p : PortNo) (x : PortNotices) :
    (s.setNotices p x).clips = s.clips := rfl

@[simp] theorem setNotices_archive (p : PortNo) (x : PortNotices) :
    (s.setNotices p x).archive = s.archive := rfl

@[simp] theorem setNotices_ports (p : PortNo) (x : PortNotices) :
    (s.setNotices p x).ports = s.ports := rfl

@[simp] theorem setNotices_bank (p : PortNo) (x : PortNotices) :
    (s.setNotices p x).bank = s.bank := rfl

@[simp] theorem setNotices_edges (p : PortNo) (x : PortNotices) :
    (s.setNotices p x).edges = s.edges := rfl

@[simp] theorem setNotices_openSpans (p : PortNo) (x : PortNotices) :
    (s.setNotices p x).openSpans = s.openSpans := rfl

@[simp] theorem setNotices_shares (p : PortNo) (x : PortNotices) :
    (s.setNotices p x).shares = s.shares := rfl

@[simp] theorem setNotices_inFlight (p : PortNo) (x : PortNotices) :
    (s.setNotices p x).inFlight = s.inFlight := rfl

@[simp] theorem setNotices_pending (p : PortNo) (x : PortNotices) :
    (s.setNotices p x).pending = s.pending := rfl

/-! #### An audio lane -/

@[simp] theorem setLane_station (l : Lane) (x : AudioLane) :
    (s.setLane l x).station = s.station := rfl

@[simp] theorem setLane_views (l : Lane) (x : AudioLane) :
    (s.setLane l x).views = s.views := rfl

@[simp] theorem setLane_map (l : Lane) (x : AudioLane) :
    (s.setLane l x).map = s.map := rfl

@[simp] theorem setLane_sched (l : Lane) (x : AudioLane) :
    (s.setLane l x).sched = s.sched := rfl

@[simp] theorem setLane_groups (l : Lane) (x : AudioLane) :
    (s.setLane l x).groups = s.groups := rfl

@[simp] theorem setLane_meter (l : Lane) (x : AudioLane) :
    (s.setLane l x).meter = s.meter := rfl

@[simp] theorem setLane_checker (l : Lane) (x : AudioLane) :
    (s.setLane l x).checker = s.checker := rfl

@[simp] theorem setLane_compliance (l : Lane) (x : AudioLane) :
    (s.setLane l x).compliance = s.compliance := rfl

@[simp] theorem setLane_store (l : Lane) (x : AudioLane) :
    (s.setLane l x).store = s.store := rfl

@[simp] theorem setLane_recorder (l : Lane) (x : AudioLane) :
    (s.setLane l x).recorder = s.recorder := rfl

@[simp] theorem setLane_holds (l : Lane) (x : AudioLane) :
    (s.setLane l x).holds = s.holds := rfl

@[simp] theorem setLane_clips (l : Lane) (x : AudioLane) :
    (s.setLane l x).clips = s.clips := rfl

@[simp] theorem setLane_archive (l : Lane) (x : AudioLane) :
    (s.setLane l x).archive = s.archive := rfl

@[simp] theorem setLane_ports (l : Lane) (x : AudioLane) :
    (s.setLane l x).ports = s.ports := rfl

@[simp] theorem setLane_router (l : Lane) (x : AudioLane) :
    (s.setLane l x).router = s.router := rfl

@[simp] theorem setLane_bank (l : Lane) (x : AudioLane) :
    (s.setLane l x).bank = s.bank := rfl

@[simp] theorem setLane_edges (l : Lane) (x : AudioLane) :
    (s.setLane l x).edges = s.edges := rfl

@[simp] theorem setLane_openSpans (l : Lane) (x : AudioLane) :
    (s.setLane l x).openSpans = s.openSpans := rfl

@[simp] theorem setLane_shares (l : Lane) (x : AudioLane) :
    (s.setLane l x).shares = s.shares := rfl

@[simp] theorem setLane_inFlight (l : Lane) (x : AudioLane) :
    (s.setLane l x).inFlight = s.inFlight := rfl

@[simp] theorem setLane_pending (l : Lane) (x : AudioLane) :
    (s.setLane l x).pending = s.pending := rfl

/-! #### The meter acts -/

@[simp] theorem meterDoes_station (i : Svc) (r : MeterSvc × List Instr) :
    (s.meterDoes i r).station = s.station := rfl

@[simp] theorem meterDoes_lanes (i : Svc) (r : MeterSvc × List Instr) :
    (s.meterDoes i r).lanes = s.lanes := rfl

@[simp] theorem meterDoes_views (i : Svc) (r : MeterSvc × List Instr) :
    (s.meterDoes i r).views = s.views := rfl

@[simp] theorem meterDoes_map (i : Svc) (r : MeterSvc × List Instr) :
    (s.meterDoes i r).map = s.map := rfl

@[simp] theorem meterDoes_sched (i : Svc) (r : MeterSvc × List Instr) :
    (s.meterDoes i r).sched = s.sched := rfl

@[simp] theorem meterDoes_groups (i : Svc) (r : MeterSvc × List Instr) :
    (s.meterDoes i r).groups = s.groups := rfl

@[simp] theorem meterDoes_checker (i : Svc) (r : MeterSvc × List Instr) :
    (s.meterDoes i r).checker = s.checker := rfl

@[simp] theorem meterDoes_compliance (i : Svc) (r : MeterSvc × List Instr) :
    (s.meterDoes i r).compliance = s.compliance := rfl

@[simp] theorem meterDoes_store (i : Svc) (r : MeterSvc × List Instr) :
    (s.meterDoes i r).store = s.store := rfl

@[simp] theorem meterDoes_recorder (i : Svc) (r : MeterSvc × List Instr) :
    (s.meterDoes i r).recorder = s.recorder := rfl

@[simp] theorem meterDoes_holds (i : Svc) (r : MeterSvc × List Instr) :
    (s.meterDoes i r).holds = s.holds := rfl

@[simp] theorem meterDoes_clips (i : Svc) (r : MeterSvc × List Instr) :
    (s.meterDoes i r).clips = s.clips := rfl

@[simp] theorem meterDoes_archive (i : Svc) (r : MeterSvc × List Instr) :
    (s.meterDoes i r).archive = s.archive := rfl

@[simp] theorem meterDoes_ports (i : Svc) (r : MeterSvc × List Instr) :
    (s.meterDoes i r).ports = s.ports := rfl

@[simp] theorem meterDoes_router (i : Svc) (r : MeterSvc × List Instr) :
    (s.meterDoes i r).router = s.router := rfl

@[simp] theorem meterDoes_bank (i : Svc) (r : MeterSvc × List Instr) :
    (s.meterDoes i r).bank = s.bank := rfl

@[simp] theorem meterDoes_edges (i : Svc) (r : MeterSvc × List Instr) :
    (s.meterDoes i r).edges = s.edges := rfl

@[simp] theorem meterDoes_openSpans (i : Svc) (r : MeterSvc × List Instr) :
    (s.meterDoes i r).openSpans = s.openSpans := rfl

@[simp] theorem meterDoes_shares (i : Svc) (r : MeterSvc × List Instr) :
    (s.meterDoes i r).shares = s.shares := rfl

@[simp] theorem meterDoes_pending (i : Svc) (r : MeterSvc × List Instr) :
    (s.meterDoes i r).pending = s.pending := rfl

/-! #### The checker acts -/

@[simp] theorem checkerDoes_station (i : Svc) (r : CheckerSvc × List Instr) :
    (s.checkerDoes i r).station = s.station := rfl

@[simp] theorem checkerDoes_lanes (i : Svc) (r : CheckerSvc × List Instr) :
    (s.checkerDoes i r).lanes = s.lanes := rfl

@[simp] theorem checkerDoes_views (i : Svc) (r : CheckerSvc × List Instr) :
    (s.checkerDoes i r).views = s.views := rfl

@[simp] theorem checkerDoes_map (i : Svc) (r : CheckerSvc × List Instr) :
    (s.checkerDoes i r).map = s.map := rfl

@[simp] theorem checkerDoes_sched (i : Svc) (r : CheckerSvc × List Instr) :
    (s.checkerDoes i r).sched = s.sched := rfl

@[simp] theorem checkerDoes_groups (i : Svc) (r : CheckerSvc × List Instr) :
    (s.checkerDoes i r).groups = s.groups := rfl

@[simp] theorem checkerDoes_meter (i : Svc) (r : CheckerSvc × List Instr) :
    (s.checkerDoes i r).meter = s.meter := rfl

@[simp] theorem checkerDoes_compliance (i : Svc) (r : CheckerSvc × List Instr) :
    (s.checkerDoes i r).compliance = s.compliance := rfl

@[simp] theorem checkerDoes_store (i : Svc) (r : CheckerSvc × List Instr) :
    (s.checkerDoes i r).store = s.store := rfl

@[simp] theorem checkerDoes_recorder (i : Svc) (r : CheckerSvc × List Instr) :
    (s.checkerDoes i r).recorder = s.recorder := rfl

@[simp] theorem checkerDoes_holds (i : Svc) (r : CheckerSvc × List Instr) :
    (s.checkerDoes i r).holds = s.holds := rfl

@[simp] theorem checkerDoes_clips (i : Svc) (r : CheckerSvc × List Instr) :
    (s.checkerDoes i r).clips = s.clips := rfl

@[simp] theorem checkerDoes_archive (i : Svc) (r : CheckerSvc × List Instr) :
    (s.checkerDoes i r).archive = s.archive := rfl

@[simp] theorem checkerDoes_ports (i : Svc) (r : CheckerSvc × List Instr) :
    (s.checkerDoes i r).ports = s.ports := rfl

@[simp] theorem checkerDoes_router (i : Svc) (r : CheckerSvc × List Instr) :
    (s.checkerDoes i r).router = s.router := rfl

@[simp] theorem checkerDoes_bank (i : Svc) (r : CheckerSvc × List Instr) :
    (s.checkerDoes i r).bank = s.bank := rfl

@[simp] theorem checkerDoes_edges (i : Svc) (r : CheckerSvc × List Instr) :
    (s.checkerDoes i r).edges = s.edges := rfl

@[simp] theorem checkerDoes_openSpans (i : Svc) (r : CheckerSvc × List Instr) :
    (s.checkerDoes i r).openSpans = s.openSpans := rfl

@[simp] theorem checkerDoes_shares (i : Svc) (r : CheckerSvc × List Instr) :
    (s.checkerDoes i r).shares = s.shares := rfl

@[simp] theorem checkerDoes_pending (i : Svc) (r : CheckerSvc × List Instr) :
    (s.checkerDoes i r).pending = s.pending := rfl

/-! #### The recorder acts -/

@[simp] theorem worked_station (i : Svc) (w : Work) :
    (s.worked i w).station = s.station := rfl

@[simp] theorem worked_lanes (i : Svc) (w : Work) :
    (s.worked i w).lanes = s.lanes := rfl

@[simp] theorem worked_views (i : Svc) (w : Work) :
    (s.worked i w).views = s.views := rfl

@[simp] theorem worked_map (i : Svc) (w : Work) :
    (s.worked i w).map = s.map := rfl

@[simp] theorem worked_sched (i : Svc) (w : Work) :
    (s.worked i w).sched = s.sched := rfl

@[simp] theorem worked_groups (i : Svc) (w : Work) :
    (s.worked i w).groups = s.groups := rfl

@[simp] theorem worked_meter (i : Svc) (w : Work) :
    (s.worked i w).meter = s.meter := rfl

@[simp] theorem worked_checker (i : Svc) (w : Work) :
    (s.worked i w).checker = s.checker := rfl

@[simp] theorem worked_compliance (i : Svc) (w : Work) :
    (s.worked i w).compliance = s.compliance := rfl

@[simp] theorem worked_holds (i : Svc) (w : Work) :
    (s.worked i w).holds = s.holds := rfl

@[simp] theorem worked_clips (i : Svc) (w : Work) :
    (s.worked i w).clips = s.clips := rfl

@[simp] theorem worked_archive (i : Svc) (w : Work) :
    (s.worked i w).archive = s.archive := rfl

@[simp] theorem worked_ports (i : Svc) (w : Work) :
    (s.worked i w).ports = s.ports := rfl

@[simp] theorem worked_router (i : Svc) (w : Work) :
    (s.worked i w).router = s.router := rfl

@[simp] theorem worked_bank (i : Svc) (w : Work) :
    (s.worked i w).bank = s.bank := rfl

@[simp] theorem worked_edges (i : Svc) (w : Work) :
    (s.worked i w).edges = s.edges := rfl

@[simp] theorem worked_openSpans (i : Svc) (w : Work) :
    (s.worked i w).openSpans = s.openSpans := rfl

@[simp] theorem worked_shares (i : Svc) (w : Work) :
    (s.worked i w).shares = s.shares := rfl

@[simp] theorem worked_pending (i : Svc) (w : Work) :
    (s.worked i w).pending = s.pending := rfl

/-! #### The backlog is tested -/

@[simp] theorem testBacklog_station :
    (s.testBacklog).station = s.station := rfl

@[simp] theorem testBacklog_lanes :
    (s.testBacklog).lanes = s.lanes := rfl

@[simp] theorem testBacklog_views :
    (s.testBacklog).views = s.views := rfl

@[simp] theorem testBacklog_map :
    (s.testBacklog).map = s.map := rfl

@[simp] theorem testBacklog_sched :
    (s.testBacklog).sched = s.sched := rfl

@[simp] theorem testBacklog_groups :
    (s.testBacklog).groups = s.groups := rfl

@[simp] theorem testBacklog_meter :
    (s.testBacklog).meter = s.meter := rfl

@[simp] theorem testBacklog_checker :
    (s.testBacklog).checker = s.checker := rfl

@[simp] theorem testBacklog_compliance :
    (s.testBacklog).compliance = s.compliance := rfl

@[simp] theorem testBacklog_recorder :
    (s.testBacklog).recorder = s.recorder := rfl

@[simp] theorem testBacklog_holds :
    (s.testBacklog).holds = s.holds := rfl

@[simp] theorem testBacklog_clips :
    (s.testBacklog).clips = s.clips := rfl

@[simp] theorem testBacklog_archive :
    (s.testBacklog).archive = s.archive := rfl

@[simp] theorem testBacklog_ports :
    (s.testBacklog).ports = s.ports := rfl

@[simp] theorem testBacklog_router :
    (s.testBacklog).router = s.router := rfl

@[simp] theorem testBacklog_bank :
    (s.testBacklog).bank = s.bank := rfl

@[simp] theorem testBacklog_edges :
    (s.testBacklog).edges = s.edges := rfl

@[simp] theorem testBacklog_openSpans :
    (s.testBacklog).openSpans = s.openSpans := rfl

@[simp] theorem testBacklog_shares :
    (s.testBacklog).shares = s.shares := rfl

@[simp] theorem testBacklog_pending :
    (s.testBacklog).pending = s.pending := rfl

/-! #### Waiting matters are taken -/

@[simp] theorem settleWrites_station :
    (s.settleWrites).station = s.station := rfl

@[simp] theorem settleWrites_lanes :
    (s.settleWrites).lanes = s.lanes := rfl

@[simp] theorem settleWrites_views :
    (s.settleWrites).views = s.views := rfl

@[simp] theorem settleWrites_map :
    (s.settleWrites).map = s.map := rfl

@[simp] theorem settleWrites_sched :
    (s.settleWrites).sched = s.sched := rfl

@[simp] theorem settleWrites_groups :
    (s.settleWrites).groups = s.groups := rfl

@[simp] theorem settleWrites_meter :
    (s.settleWrites).meter = s.meter := rfl

@[simp] theorem settleWrites_checker :
    (s.settleWrites).checker = s.checker := rfl

@[simp] theorem settleWrites_store :
    (s.settleWrites).store = s.store := rfl

@[simp] theorem settleWrites_recorder :
    (s.settleWrites).recorder = s.recorder := rfl

@[simp] theorem settleWrites_holds :
    (s.settleWrites).holds = s.holds := rfl

@[simp] theorem settleWrites_clips :
    (s.settleWrites).clips = s.clips := rfl

@[simp] theorem settleWrites_archive :
    (s.settleWrites).archive = s.archive := rfl

@[simp] theorem settleWrites_ports :
    (s.settleWrites).ports = s.ports := rfl

@[simp] theorem settleWrites_router :
    (s.settleWrites).router = s.router := rfl

@[simp] theorem settleWrites_bank :
    (s.settleWrites).bank = s.bank := rfl

@[simp] theorem settleWrites_edges :
    (s.settleWrites).edges = s.edges := rfl

@[simp] theorem settleWrites_openSpans :
    (s.settleWrites).openSpans = s.openSpans := rfl

@[simp] theorem settleWrites_shares :
    (s.settleWrites).shares = s.shares := rfl

@[simp] theorem settleWrites_pending :
    (s.settleWrites).pending = s.pending := rfl

/-! #### Completions are handed over -/

@[simp] theorem complete_station (ws : List Waiting) :
    (s.complete ws).station = s.station := rfl

@[simp] theorem complete_lanes (ws : List Waiting) :
    (s.complete ws).lanes = s.lanes := rfl

@[simp] theorem complete_views (ws : List Waiting) :
    (s.complete ws).views = s.views := rfl

@[simp] theorem complete_map (ws : List Waiting) :
    (s.complete ws).map = s.map := rfl

@[simp] theorem complete_sched (ws : List Waiting) :
    (s.complete ws).sched = s.sched := rfl

@[simp] theorem complete_groups (ws : List Waiting) :
    (s.complete ws).groups = s.groups := rfl

@[simp] theorem complete_meter (ws : List Waiting) :
    (s.complete ws).meter = s.meter := rfl

@[simp] theorem complete_checker (ws : List Waiting) :
    (s.complete ws).checker = s.checker := rfl

@[simp] theorem complete_store (ws : List Waiting) :
    (s.complete ws).store = s.store := rfl

@[simp] theorem complete_recorder (ws : List Waiting) :
    (s.complete ws).recorder = s.recorder := rfl

@[simp] theorem complete_holds (ws : List Waiting) :
    (s.complete ws).holds = s.holds := rfl

@[simp] theorem complete_clips (ws : List Waiting) :
    (s.complete ws).clips = s.clips := rfl

@[simp] theorem complete_archive (ws : List Waiting) :
    (s.complete ws).archive = s.archive := rfl

@[simp] theorem complete_ports (ws : List Waiting) :
    (s.complete ws).ports = s.ports := rfl

@[simp] theorem complete_router (ws : List Waiting) :
    (s.complete ws).router = s.router := rfl

@[simp] theorem complete_bank (ws : List Waiting) :
    (s.complete ws).bank = s.bank := rfl

@[simp] theorem complete_edges (ws : List Waiting) :
    (s.complete ws).edges = s.edges := rfl

@[simp] theorem complete_openSpans (ws : List Waiting) :
    (s.complete ws).openSpans = s.openSpans := rfl

@[simp] theorem complete_shares (ws : List Waiting) :
    (s.complete ws).shares = s.shares := rfl

@[simp] theorem complete_pending (ws : List Waiting) :
    (s.complete ws).pending = s.pending := rfl

/-! #### The spans of a run -/

@[simp] theorem noteRun_station (i : Svc) (k : Int) (x : SvcState) :
    (s.noteRun i k x).station = s.station := rfl

@[simp] theorem noteRun_lanes (i : Svc) (k : Int) (x : SvcState) :
    (s.noteRun i k x).lanes = s.lanes := rfl

@[simp] theorem noteRun_views (i : Svc) (k : Int) (x : SvcState) :
    (s.noteRun i k x).views = s.views := rfl

@[simp] theorem noteRun_map (i : Svc) (k : Int) (x : SvcState) :
    (s.noteRun i k x).map = s.map := rfl

@[simp] theorem noteRun_sched (i : Svc) (k : Int) (x : SvcState) :
    (s.noteRun i k x).sched = s.sched := rfl

@[simp] theorem noteRun_groups (i : Svc) (k : Int) (x : SvcState) :
    (s.noteRun i k x).groups = s.groups := rfl

@[simp] theorem noteRun_meter (i : Svc) (k : Int) (x : SvcState) :
    (s.noteRun i k x).meter = s.meter := rfl

@[simp] theorem noteRun_checker (i : Svc) (k : Int) (x : SvcState) :
    (s.noteRun i k x).checker = s.checker := rfl

@[simp] theorem noteRun_compliance (i : Svc) (k : Int) (x : SvcState) :
    (s.noteRun i k x).compliance = s.compliance := rfl

@[simp] theorem noteRun_store (i : Svc) (k : Int) (x : SvcState) :
    (s.noteRun i k x).store = s.store := rfl

@[simp] theorem noteRun_recorder (i : Svc) (k : Int) (x : SvcState) :
    (s.noteRun i k x).recorder = s.recorder := rfl

@[simp] theorem noteRun_holds (i : Svc) (k : Int) (x : SvcState) :
    (s.noteRun i k x).holds = s.holds := rfl

@[simp] theorem noteRun_clips (i : Svc) (k : Int) (x : SvcState) :
    (s.noteRun i k x).clips = s.clips := rfl

@[simp] theorem noteRun_archive (i : Svc) (k : Int) (x : SvcState) :
    (s.noteRun i k x).archive = s.archive := rfl

@[simp] theorem noteRun_ports (i : Svc) (k : Int) (x : SvcState) :
    (s.noteRun i k x).ports = s.ports := rfl

@[simp] theorem noteRun_router (i : Svc) (k : Int) (x : SvcState) :
    (s.noteRun i k x).router = s.router := rfl

@[simp] theorem noteRun_bank (i : Svc) (k : Int) (x : SvcState) :
    (s.noteRun i k x).bank = s.bank := rfl

@[simp] theorem noteRun_edges (i : Svc) (k : Int) (x : SvcState) :
    (s.noteRun i k x).edges = s.edges := rfl

@[simp] theorem noteRun_shares (i : Svc) (k : Int) (x : SvcState) :
    (s.noteRun i k x).shares = s.shares := rfl

@[simp] theorem noteRun_inFlight (i : Svc) (k : Int) (x : SvcState) :
    (s.noteRun i k x).inFlight = s.inFlight := rfl

@[simp] theorem noteRun_pending (i : Svc) (k : Int) (x : SvcState) :
    (s.noteRun i k x).pending = s.pending := rfl

/-! #### A counter is incremented -/

@[simp] theorem bankAdd_station (c : Counter) :
    (s.bankAdd c).station = s.station := rfl

@[simp] theorem bankAdd_lanes (c : Counter) :
    (s.bankAdd c).lanes = s.lanes := rfl

@[simp] theorem bankAdd_views (c : Counter) :
    (s.bankAdd c).views = s.views := rfl

@[simp] theorem bankAdd_map (c : Counter) :
    (s.bankAdd c).map = s.map := rfl

@[simp] theorem bankAdd_sched (c : Counter) :
    (s.bankAdd c).sched = s.sched := rfl

@[simp] theorem bankAdd_groups (c : Counter) :
    (s.bankAdd c).groups = s.groups := rfl

@[simp] theorem bankAdd_meter (c : Counter) :
    (s.bankAdd c).meter = s.meter := rfl

@[simp] theorem bankAdd_checker (c : Counter) :
    (s.bankAdd c).checker = s.checker := rfl

@[simp] theorem bankAdd_compliance (c : Counter) :
    (s.bankAdd c).compliance = s.compliance := rfl

@[simp] theorem bankAdd_store (c : Counter) :
    (s.bankAdd c).store = s.store := rfl

@[simp] theorem bankAdd_recorder (c : Counter) :
    (s.bankAdd c).recorder = s.recorder := rfl

@[simp] theorem bankAdd_holds (c : Counter) :
    (s.bankAdd c).holds = s.holds := rfl

@[simp] theorem bankAdd_clips (c : Counter) :
    (s.bankAdd c).clips = s.clips := rfl

@[simp] theorem bankAdd_archive (c : Counter) :
    (s.bankAdd c).archive = s.archive := rfl

@[simp] theorem bankAdd_ports (c : Counter) :
    (s.bankAdd c).ports = s.ports := rfl

@[simp] theorem bankAdd_router (c : Counter) :
    (s.bankAdd c).router = s.router := rfl

@[simp] theorem bankAdd_edges (c : Counter) :
    (s.bankAdd c).edges = s.edges := rfl

@[simp] theorem bankAdd_openSpans (c : Counter) :
    (s.bankAdd c).openSpans = s.openSpans := rfl

@[simp] theorem bankAdd_shares (c : Counter) :
    (s.bankAdd c).shares = s.shares := rfl

@[simp] theorem bankAdd_pending (c : Counter) :
    (s.bankAdd c).pending = s.pending := rfl

/-! #### A response -/

@[simp] theorem respond_station (rq : Req) (st : Status) (a : Answer) :
    (s.respond rq st a).station = s.station := by
  cases rq; unfold respond; dsimp only; split <;> (try split) <;> (try split) <;> rfl

@[simp] theorem respond_lanes (rq : Req) (st : Status) (a : Answer) :
    (s.respond rq st a).lanes = s.lanes := by
  cases rq; unfold respond; dsimp only; split <;> (try split) <;> (try split) <;> rfl

@[simp] theorem respond_views (rq : Req) (st : Status) (a : Answer) :
    (s.respond rq st a).views = s.views := by
  cases rq; unfold respond; dsimp only; split <;> (try split) <;> (try split) <;> rfl

@[simp] theorem respond_map (rq : Req) (st : Status) (a : Answer) :
    (s.respond rq st a).map = s.map := by
  cases rq; unfold respond; dsimp only; split <;> (try split) <;> (try split) <;> rfl

@[simp] theorem respond_sched (rq : Req) (st : Status) (a : Answer) :
    (s.respond rq st a).sched = s.sched := by
  cases rq; unfold respond; dsimp only; split <;> (try split) <;> (try split) <;> rfl

@[simp] theorem respond_groups (rq : Req) (st : Status) (a : Answer) :
    (s.respond rq st a).groups = s.groups := by
  cases rq; unfold respond; dsimp only; split <;> (try split) <;> (try split) <;> rfl

@[simp] theorem respond_meter (rq : Req) (st : Status) (a : Answer) :
    (s.respond rq st a).meter = s.meter := by
  cases rq; unfold respond; dsimp only; split <;> (try split) <;> (try split) <;> rfl

@[simp] theorem respond_checker (rq : Req) (st : Status) (a : Answer) :
    (s.respond rq st a).checker = s.checker := by
  cases rq; unfold respond; dsimp only; split <;> (try split) <;> (try split) <;> rfl

@[simp] theorem respond_compliance (rq : Req) (st : Status) (a : Answer) :
    (s.respond rq st a).compliance = s.compliance := by
  cases rq; unfold respond; dsimp only; split <;> (try split) <;> (try split) <;> rfl

@[simp] theorem respond_store (rq : Req) (st : Status) (a : Answer) :
    (s.respond rq st a).store = s.store := by
  cases rq; unfold respond; dsimp only; split <;> (try split) <;> (try split) <;> rfl

@[simp] theorem respond_recorder (rq : Req) (st : Status) (a : Answer) :
    (s.respond rq st a).recorder = s.recorder := by
  cases rq; unfold respond; dsimp only; split <;> (try split) <;> (try split) <;> rfl

@[simp] theorem respond_holds (rq : Req) (st : Status) (a : Answer) :
    (s.respond rq st a).holds = s.holds := by
  cases rq; unfold respond; dsimp only; split <;> (try split) <;> (try split) <;> rfl

@[simp] theorem respond_clips (rq : Req) (st : Status) (a : Answer) :
    (s.respond rq st a).clips = s.clips := by
  cases rq; unfold respond; dsimp only; split <;> (try split) <;> (try split) <;> rfl

@[simp] theorem respond_archive (rq : Req) (st : Status) (a : Answer) :
    (s.respond rq st a).archive = s.archive := by
  cases rq; unfold respond; dsimp only; split <;> (try split) <;> (try split) <;> rfl

@[simp] theorem respond_router (rq : Req) (st : Status) (a : Answer) :
    (s.respond rq st a).router = s.router := by
  cases rq; unfold respond; dsimp only; split <;> (try split) <;> (try split) <;> rfl

@[simp] theorem respond_bank (rq : Req) (st : Status) (a : Answer) :
    (s.respond rq st a).bank = s.bank := by
  cases rq; unfold respond; dsimp only; split <;> (try split) <;> (try split) <;> rfl

@[simp] theorem respond_edges (rq : Req) (st : Status) (a : Answer) :
    (s.respond rq st a).edges = s.edges := by
  cases rq; unfold respond; dsimp only; split <;> (try split) <;> (try split) <;> rfl

@[simp] theorem respond_openSpans (rq : Req) (st : Status) (a : Answer) :
    (s.respond rq st a).openSpans = s.openSpans := by
  cases rq; unfold respond; dsimp only; split <;> (try split) <;> (try split) <;> rfl

@[simp] theorem respond_shares (rq : Req) (st : Status) (a : Answer) :
    (s.respond rq st a).shares = s.shares := by
  cases rq; unfold respond; dsimp only; split <;> (try split) <;> (try split) <;> rfl

@[simp] theorem respond_pending (rq : Req) (st : Status) (a : Answer) :
    (s.respond rq st a).pending = s.pending := by
  cases rq; unfold respond; dsimp only; split <;> (try split) <;> (try split) <;> rfl

/-! #### A response, with CLAMPED or not -/

@[simp] theorem respondOk_station (rq : Req) (b : Bool) (a : Answer) :
    (s.respondOk rq b a).station = s.station := respond_station s rq _ a

@[simp] theorem respondOk_lanes (rq : Req) (b : Bool) (a : Answer) :
    (s.respondOk rq b a).lanes = s.lanes := respond_lanes s rq _ a

@[simp] theorem respondOk_views (rq : Req) (b : Bool) (a : Answer) :
    (s.respondOk rq b a).views = s.views := respond_views s rq _ a

@[simp] theorem respondOk_map (rq : Req) (b : Bool) (a : Answer) :
    (s.respondOk rq b a).map = s.map := respond_map s rq _ a

@[simp] theorem respondOk_sched (rq : Req) (b : Bool) (a : Answer) :
    (s.respondOk rq b a).sched = s.sched := respond_sched s rq _ a

@[simp] theorem respondOk_groups (rq : Req) (b : Bool) (a : Answer) :
    (s.respondOk rq b a).groups = s.groups := respond_groups s rq _ a

@[simp] theorem respondOk_meter (rq : Req) (b : Bool) (a : Answer) :
    (s.respondOk rq b a).meter = s.meter := respond_meter s rq _ a

@[simp] theorem respondOk_checker (rq : Req) (b : Bool) (a : Answer) :
    (s.respondOk rq b a).checker = s.checker := respond_checker s rq _ a

@[simp] theorem respondOk_compliance (rq : Req) (b : Bool) (a : Answer) :
    (s.respondOk rq b a).compliance = s.compliance := respond_compliance s rq _ a

@[simp] theorem respondOk_store (rq : Req) (b : Bool) (a : Answer) :
    (s.respondOk rq b a).store = s.store := respond_store s rq _ a

@[simp] theorem respondOk_recorder (rq : Req) (b : Bool) (a : Answer) :
    (s.respondOk rq b a).recorder = s.recorder := respond_recorder s rq _ a

@[simp] theorem respondOk_holds (rq : Req) (b : Bool) (a : Answer) :
    (s.respondOk rq b a).holds = s.holds := respond_holds s rq _ a

@[simp] theorem respondOk_clips (rq : Req) (b : Bool) (a : Answer) :
    (s.respondOk rq b a).clips = s.clips := respond_clips s rq _ a

@[simp] theorem respondOk_archive (rq : Req) (b : Bool) (a : Answer) :
    (s.respondOk rq b a).archive = s.archive := respond_archive s rq _ a

@[simp] theorem respondOk_router (rq : Req) (b : Bool) (a : Answer) :
    (s.respondOk rq b a).router = s.router := respond_router s rq _ a

@[simp] theorem respondOk_bank (rq : Req) (b : Bool) (a : Answer) :
    (s.respondOk rq b a).bank = s.bank := respond_bank s rq _ a

@[simp] theorem respondOk_edges (rq : Req) (b : Bool) (a : Answer) :
    (s.respondOk rq b a).edges = s.edges := respond_edges s rq _ a

@[simp] theorem respondOk_openSpans (rq : Req) (b : Bool) (a : Answer) :
    (s.respondOk rq b a).openSpans = s.openSpans := respond_openSpans s rq _ a

@[simp] theorem respondOk_shares (rq : Req) (b : Bool) (a : Answer) :
    (s.respondOk rq b a).shares = s.shares := respond_shares s rq _ a

@[simp] theorem respondOk_pending (rq : Req) (b : Bool) (a : Answer) :
    (s.respondOk rq b a).pending = s.pending := respond_pending s rq _ a

/-! #### A refusal -/

@[simp] theorem refuse_station (rq : Req) (st : Status) :
    (s.refuse rq st).station = s.station := respond_station s rq st .nothing

@[simp] theorem refuse_lanes (rq : Req) (st : Status) :
    (s.refuse rq st).lanes = s.lanes := respond_lanes s rq st .nothing

@[simp] theorem refuse_views (rq : Req) (st : Status) :
    (s.refuse rq st).views = s.views := respond_views s rq st .nothing

@[simp] theorem refuse_map (rq : Req) (st : Status) :
    (s.refuse rq st).map = s.map := respond_map s rq st .nothing

@[simp] theorem refuse_sched (rq : Req) (st : Status) :
    (s.refuse rq st).sched = s.sched := respond_sched s rq st .nothing

@[simp] theorem refuse_groups (rq : Req) (st : Status) :
    (s.refuse rq st).groups = s.groups := respond_groups s rq st .nothing

@[simp] theorem refuse_meter (rq : Req) (st : Status) :
    (s.refuse rq st).meter = s.meter := respond_meter s rq st .nothing

@[simp] theorem refuse_checker (rq : Req) (st : Status) :
    (s.refuse rq st).checker = s.checker := respond_checker s rq st .nothing

@[simp] theorem refuse_compliance (rq : Req) (st : Status) :
    (s.refuse rq st).compliance = s.compliance := respond_compliance s rq st .nothing

@[simp] theorem refuse_store (rq : Req) (st : Status) :
    (s.refuse rq st).store = s.store := respond_store s rq st .nothing

@[simp] theorem refuse_recorder (rq : Req) (st : Status) :
    (s.refuse rq st).recorder = s.recorder := respond_recorder s rq st .nothing

@[simp] theorem refuse_holds (rq : Req) (st : Status) :
    (s.refuse rq st).holds = s.holds := respond_holds s rq st .nothing

@[simp] theorem refuse_clips (rq : Req) (st : Status) :
    (s.refuse rq st).clips = s.clips := respond_clips s rq st .nothing

@[simp] theorem refuse_archive (rq : Req) (st : Status) :
    (s.refuse rq st).archive = s.archive := respond_archive s rq st .nothing

@[simp] theorem refuse_router (rq : Req) (st : Status) :
    (s.refuse rq st).router = s.router := respond_router s rq st .nothing

@[simp] theorem refuse_bank (rq : Req) (st : Status) :
    (s.refuse rq st).bank = s.bank := respond_bank s rq st .nothing

@[simp] theorem refuse_edges (rq : Req) (st : Status) :
    (s.refuse rq st).edges = s.edges := respond_edges s rq st .nothing

@[simp] theorem refuse_openSpans (rq : Req) (st : Status) :
    (s.refuse rq st).openSpans = s.openSpans := respond_openSpans s rq st .nothing

@[simp] theorem refuse_shares (rq : Req) (st : Status) :
    (s.refuse rq st).shares = s.shares := respond_shares s rq st .nothing

@[simp] theorem refuse_pending (rq : Req) (st : Status) :
    (s.refuse rq st).pending = s.pending := respond_pending s rq st .nothing


/-! #### The vectors that were written -/

@[simp] theorem setSched_sched (i : Svc) (x : ServiceSched) : (s.setSched i x).sched = s.sched.set i x := rfl

@[simp] theorem setMeter_meter (i : Svc) (x : MeterSvc) : (s.setMeter i x).meter = s.meter.set i x := rfl

@[simp] theorem setChecker_checker (i : Svc) (x : CheckerSvc) :
    (s.setChecker i x).checker = s.checker.set i x := rfl

@[simp] theorem setRecorder_recorder (i : Svc) (x : RecorderSvc) :
    (s.setRecorder i x).recorder = s.recorder.set i x := rfl

@[simp] theorem setPort_ports (p : PortNo) (x : Port) : (s.setPort p x).ports = s.ports.set p x := rfl

@[simp] theorem setNotices_notices (p : PortNo) (x : PortNotices) :
    (s.setNotices p x).router.ports = s.router.ports.set p x := rfl

@[simp] theorem setNotices_routes (p : PortNo) (x : PortNotices) :
    (s.setNotices p x).router.routes = s.router.routes := rfl

@[simp] theorem setLane_lanes (l : Lane) (x : AudioLane) : (s.setLane l x).lanes = s.lanes.set l x := rfl

@[simp] theorem meterDoes_meter (i : Svc) (r : MeterSvc × List Instr) :
    (s.meterDoes i r).meter = s.meter.set i r.1 := rfl

@[simp] theorem meterDoes_inFlight (i : Svc) (r : MeterSvc × List Instr) :
    (s.meterDoes i r).inFlight = s.inFlight ++ r.2 := rfl

@[simp] theorem checkerDoes_checker (i : Svc) (r : CheckerSvc × List Instr) :
    (s.checkerDoes i r).checker = s.checker.set i r.1 := rfl

@[simp] theorem checkerDoes_inFlight (i : Svc) (r : CheckerSvc × List Instr) :
    (s.checkerDoes i r).inFlight = s.inFlight ++ r.2 := rfl

@[simp] theorem worked_recorder (i : Svc) (w : Work) : (s.worked i w).recorder = s.recorder.set i w.x := rfl

@[simp] theorem worked_store (i : Svc) (w : Work) : (s.worked i w).store = w.store := rfl

@[simp] theorem worked_inFlight (i : Svc) (w : Work) : (s.worked i w).inFlight = s.inFlight ++ w.out := rfl

@[simp] theorem testBacklog_store : s.testBacklog.store = (s.store.testBacklog s.now).1 := rfl

@[simp] theorem testBacklog_inFlight :
    s.testBacklog.inFlight = s.inFlight ++ (s.store.testBacklog s.now).2 := rfl

@[simp] theorem now_eq : s.now = s.station.time := rfl

end State

end Sys2Proof.Machine
end

