-- ==== Sys2Proof/Laws/Ops.lean ====
section
/-!
SUPPORT. What each shared operation does, said once.
-/

namespace Sys2Proof.Machine

/-! ### Numbers and vectors -/

theorem asFin_eq_some {k n : Nat} {i : Fin k} : asFin k n = some i ↔ n = i.val := by
  unfold asFin
  split
  · next h =>
    rw [Option.some_inj]
    exact ⟨fun e => e ▸ rfl, fun e => Fin.ext e⟩
  · next h => simp only [reduceCtorEq, false_iff]; rintro rfl; exact h i.isLt

theorem asFin_eq_none {k n : Nat} : asFin k n = none ↔ k ≤ n := by
  unfold asFin
  split <;> simp <;> omega

@[simp] theorem asFin_val {k : Nat} (i : Fin k) : asFin k i.val = some i := asFin_eq_some.mpr rfl

@[simp] theorem mapVec_getElem {α β : Type} {n : Nat} (f : α → β) (v : Vector α n) (k : Nat) (h : k < n) :
    (mapVec f v)[k] = f v[k] := by
  simp [mapVec]

@[simp] theorem mem_allSvcs (i : Svc) : i ∈ allSvcs := List.mem_finRange i

@[simp] theorem mem_allPorts (p : PortNo) : p ∈ allPorts := List.mem_finRange p

/-! ### Arguments (R177) -/

theorem clampNat_mem {lo hi : Nat} (h : lo ≤ hi) (n : Nat) : lo ≤ (clampNat lo hi n).val ∧ (clampNat lo hi n).val ≤ hi := by
  unfold clampNat
  split
  · exact ⟨Nat.le_refl _, h⟩
  · split
    · exact ⟨h, Nat.le_refl _⟩
    · dsimp only; omega

theorem clampNat_changed (lo hi n : Nat) : (clampNat lo hi n).changed = true ↔ n < lo ∨ hi < n := by
  unfold clampNat
  split
  · simp_all
  · split <;> simp_all

theorem clampNat_inside {lo hi n : Nat} (h : lo ≤ n) (h' : n ≤ hi) : clampNat lo hi n = ⟨n, false⟩ := by
  unfold clampNat
  rw [if_neg (by omega), if_neg (by omega)]

theorem clampInt_mem {lo hi : Int} (h : lo ≤ hi) (n : Int) : lo ≤ (clampInt lo hi n).val ∧ (clampInt lo hi n).val ≤ hi := by
  unfold clampInt
  split
  · exact ⟨Int.le_refl _, h⟩
  · split
    · exact ⟨h, Int.le_refl _⟩
    · dsimp only; omega

theorem clampInt_changed (lo hi n : Int) : (clampInt lo hi n).changed = true ↔ n < lo ∨ hi < n := by
  unfold clampInt
  split
  · simp_all
  · split <;> simp_all

/-! ### Responses (R170, R174) -/

@[simp] theorem Port.say_strap (x : Port) (r : Response) : (x.say r).strap = x.strap := rfl
@[simp] theorem Port.say_role (x : Port) (r : Response) : (x.say r).role = x.role := rfl
@[simp] theorem Port.say_link (x : Port) (r : Response) : (x.say r).link = x.link := rfl
@[simp] theorem Port.say_queue (x : Port) (r : Response) : (x.say r).queue = x.queue := rfl
@[simp] theorem Port.say_rx (x : Port) (r : Response) : (x.say r).rx = x.rx := rfl
@[simp] theorem Port.say_serving (x : Port) (r : Response) : (x.say r).serving = x.serving := rfl
@[simp] theorem Port.say_passes (x : Port) (r : Response) : (x.say r).passes = x.passes := rfl

theorem Port.say_up (x : Port) (r : Response) (h : x.link = .up) : x.say r = { x with out := x.out ++ [r] } := by
  unfold Port.say
  rw [h]

theorem Port.say_down (x : Port) (r : Response) (h : x.link = .down) : x.say r = x := by
  cases x
  cases h
  rfl

/-- A request commanded outside a queue: only the port's responses can grow. -/
theorem State.respond_direct (s : State) (p : PortNo) (tag : Byte) (st : Status) (a : Answer) :
    s.respond ⟨p, tag, none⟩ st a = s.setPort p (s.ports[p].say ⟨tag, st, a⟩) := rfl

/-- The request in service under its pass: the response goes out, the request leaves the queue and the next one enters
service. -/
theorem State.respond_served (s : State) (p : PortNo) (tag : Byte) (k : Nat) (st : Status) (a : Answer)
    (h : s.ports[p].serving = some k) :
    s.respond ⟨p, tag, some k⟩ st a
      = (s.setPort p
          { s.ports[p].say ⟨tag, st, a⟩ with queue := s.ports[p].queue.tail, serving := none }).send
          (if s.ports[p].queue.tail.isEmpty then [] else [.requestService p]) := by
  unfold respond
  dsimp only
  rw [if_pos h]
  split <;> simp_all

/-- R178: a request whose port has been through LINK_DOWN and back: nothing is answered. -/
theorem State.respond_lost (s : State) (p : PortNo) (tag : Byte) (k : Nat) (st : Status) (a : Answer)
    (h : s.ports[p].serving ≠ some k) : s.respond ⟨p, tag, some k⟩ st a = s := by
  unfold respond
  dsimp only
  rw [if_neg h]

/-! ### The MIs of a run (R9) -/

theorem OpenSpan.has_eq (p : OpenSpan) (k : Int) :
    p.has k = (decide (p.first ≤ k) && p.upTo.all fun b => decide (k < b)) := by
  unfold has
  cases p.upTo <;> rfl

/-- A message that is no period edge to the lane leaves those on their way to it as they are. -/
theorem State.edgesTo_arrive (s : State) (l : Lane) (c : Instr) (h : edgeTo l c = none) :
    (s.arrive c).edgesTo l = s.edgesTo l := by
  show (s.inFlight.erase c).filterMap (edgeTo l) = s.inFlight.filterMap (edgeTo l)
  induction s.inFlight with
  | nil => rfl
  | cons a ms ih =>
    by_cases ha : a = c
    · subst ha
      simp [h]
    · rw [List.erase_cons_tail (by simpa using ha)]
      simp only [List.filterMap_cons, ih]

/-- R9: what the judgment of an MI does for services that had an open segment during it: each view takes the judgment, and the
increments and notices are sent service by service. -/
theorem State.noteInput_fold (l : Lane) (t : Mi) (j : Judgment) (is : List Svc) (hn : is.Nodup) (s : State) :
    let u := is.foldl (fun x i => x.noteInput l t j i) s
    u = { s with views := u.views, inFlight := u.inFlight } ∧
    (∀ i : Svc, u.views[i] = if i ∈ is then viewOf j else s.views[i]) ∧
    u.inFlight = s.inFlight ++ is.flatMap fun i =>
      (if j = .absent then [increment .audioAbsentMi i] else [])
        ++ (if viewOf j = s.views[i] then []
          else [notice (if j = .absent then .inputAbsent else .inputRestored) (some i) (some t) (.audioLane l.val)]) := by
  induction is generalizing s with
  | nil => exact ⟨rfl, by simp, by simp⟩
  | cons i is ih =>
    obtain ⟨hi, hn⟩ := List.nodup_cons.mp hn
    obtain ⟨a, b, c⟩ := ih hn (s.noteInput l t j i)
    have e1 : s.noteInput l t j i
        = { s with views := (s.noteInput l t j i).views, inFlight := (s.noteInput l t j i).inFlight } := by
      unfold noteInput
      dsimp only
      split <;> rfl
    have e2 : ∀ k : Svc, (s.noteInput l t j i).views[k] = if k = i then viewOf j else s.views[k] := by
      intro k
      unfold noteInput
      dsimp only
      by_cases hk : k = i
      · subst hk
        split
        · next h => simp [h]
        · simp [send]
      · have : (i : Nat) ≠ k := fun h => hk (Fin.ext h.symm)
        split
        · simp [send]
        · simp [send, this]
    refine ⟨by rw [List.foldl_cons, a, e1], fun k => ?_, ?_⟩
    · rw [List.foldl_cons, b, e2]
      by_cases hk : k = i
      · subst hk
        simp
      · simp [hk]
    · have e3 : (s.noteInput l t j i).inFlight = s.inFlight ++ ((if j = .absent then [increment .audioAbsentMi i] else [])
          ++ (if viewOf j = s.views[i] then []
            else [notice (if j = .absent then .inputAbsent else .inputRestored) (some i) (some t) (.audioLane l.val)])) := by
        unfold noteInput
        dsimp only
        split <;> simp [send]
      rw [List.foldl_cons, c, e3, List.flatMap_cons, List.append_assoc]
      refine congrArg _ (congrArg _ (List.flatMap_congr fun k hk => ?_))
      rw [e2 k, if_neg (fun h : k = i => hi (h ▸ hk))]

/-! ### The clip lists (R153) -/

theorem mem_placeEntry {e f : ClipEntry} {l : List ClipEntry} (h : f ∈ placeEntry e l) : f = e ∨ f ∈ l := by
  induction l with
  | nil => simpa [placeEntry] using h
  | cons g l ih =>
    unfold placeEntry at h
    split at h
    · rcases List.mem_cons.mp h with h | h
      · exact .inr (h ▸ List.mem_cons_self)
      · exact (ih h).imp_right (List.mem_cons_of_mem g)
    · split at h
      · exact (List.mem_cons.mp h).imp_right (List.mem_cons_of_mem g)
      · exact List.mem_cons.mp h

theorem placeEntry_rising {e : ClipEntry} {l : List ClipEntry} (h : l.Pairwise fun a b => a.start < b.start) :
    (placeEntry e l).Pairwise fun a b => a.start < b.start := by
  induction l with
  | nil => simp [placeEntry]
  | cons g l ih =>
    obtain ⟨hg, hl⟩ := List.pairwise_cons.mp h
    unfold placeEntry
    split
    · next hlt =>
      refine List.pairwise_cons.mpr ⟨fun f hf => ?_, ih hl⟩
      rcases mem_placeEntry hf with rfl | hf
      · exact hlt
      · exact hg f hf
    · next hge =>
      split
      · next heq => exact List.pairwise_cons.mpr ⟨fun f hf => heq ▸ hg f hf, hl⟩
      · next hne =>
        have hlt : e.start < g.start := Nat.lt_of_le_of_ne (Nat.le_of_not_lt hge) (Ne.symm hne)
        refine List.pairwise_cons.mpr ⟨fun f hf => ?_, h⟩
        rcases List.mem_cons.mp hf with rfl | hf
        · exact hlt
        · exact Nat.lt_trans hlt (hg f hf)

/-! ### The compliance unit (R100) -/

/-- Matters are left waiting only behind a write in progress. -/
theorem Compliance.writeAll_waiting (t : Option Mi) (map : Vector ServiceRecord 16) (ws : List Waiting) (x : Compliance) :
    (writeAll t map ws x).1.waiting = [] ∨ (writeAll t map ws x).1.writing.isSome = true := by
  induction ws generalizing x with
  | nil => exact .inl rfl
  | cons w ws ih =>
    unfold writeAll
    split
    · next h => exact .inr h
    · exact ih _

/-! ### The closing set (R32) -/

/-- What waits is written under the profiles and the collection mark as they stand. -/
theorem Compliance.writeAll_keeps (time : Option Mi) (map : Vector ServiceRecord 16) (ws : List Waiting) (x : Compliance) :
    (writeAll time map ws x).1.profiles = x.profiles ∧ (writeAll time map ws x).1.mark = x.mark := by
  induction ws generalizing x with
  | nil => exact ⟨rfl, rfl⟩
  | cons w ws ih =>
    unfold writeAll
    split
    · exact ⟨rfl, rfl⟩
    · have h := ih (x.takeWaiting time map w).1
      have k : (x.takeWaiting time map w).1.profiles = x.profiles ∧ (x.takeWaiting time map w).1.mark = x.mark := by
        cases w with
        | clearReferences => exact ⟨rfl, rfl⟩
        | completion svc g =>
          unfold takeWaiting beginWrite
          dsimp only
          split
          · exact ⟨rfl, rfl⟩
          · split
            · exact ⟨rfl, rfl⟩
            · unfold finish
              dsimp only
              split <;> exact ⟨rfl, rfl⟩
      exact ⟨h.1.trans k.1, h.2.trans k.2⟩

/-- What a segment needs before it completes (R32, R103). -/
theorem Segment.complete_eq (g : Segment) :
    g.complete = (decide (g.cause = some .skipped) || (g.meterSummary.isSome && g.captionSummary.isSome)) := by
  unfold complete needsSummaries
  cases h : g.cause with
  | none => simp
  | some c => cases c <;> simp

/-- The entries that complete are those at the head that need nothing more, with their final flags. -/
theorem ServiceSched.completeHeads_eq (x : ServiceSched) (l : List Segment) :
    x.completeHeads l = ((l.takeWhile Segment.complete).map x.markAtCompletion, l.dropWhile Segment.complete) := by
  induction l with
  | nil => rfl
  | cons g gs ih =>
    unfold completeHeads
    by_cases h : g.complete <;> simp [h, ih]

/-- What the closing set of a service gives to the compliance unit (R32). -/
theorem State.settleClosing_eq (s : State) (i : Svc) :
    s.settleClosing i =
      if s.sched[i].closing.takeWhile Segment.complete = [] then s
      else (s.setSched i { s.sched[i] with closing := s.sched[i].closing.dropWhile Segment.complete }).complete
        (((s.sched[i].closing.takeWhile Segment.complete).map s.sched[i].markAtCompletion).map (.completion i)) := by
  unfold settleClosing
  simp only [ServiceSched.completeHeads_eq, List.isEmpty_iff, List.map_eq_nil_iff]

/-- The entries that complete and those that stay make up the set, and the first that stays is not complete. -/
theorem ServiceSched.completeHeads_rest (x : ServiceSched) (l : List Segment) :
    ∃ done, l = done ++ (x.completeHeads l).2 ∧ (∀ g ∈ done, g.complete = true)
      ∧ (x.completeHeads l).1 = done.map x.markAtCompletion
      ∧ ∀ g, (x.completeHeads l).2.head? = some g → g.complete = false := by
  induction l with
  | nil => exact ⟨[], rfl, by simp, rfl, by simp [completeHeads]⟩
  | cons g gs ih =>
    obtain ⟨done, h1, h2, h3, h4⟩ := ih
    by_cases hg : g.complete = true
    · have he : x.completeHeads (g :: gs)
          = (x.markAtCompletion g :: (x.completeHeads gs).1, (x.completeHeads gs).2) := by
        rw [completeHeads, if_pos hg]
      rw [he]
      refine ⟨g :: done, ?_, ?_, ?_, h4⟩
      · rw [List.cons_append, ← h1]
      · intro a ha
        rcases List.mem_cons.mp ha with rfl | ha
        · exact hg
        · exact h2 a ha
      · rw [h3, List.map_cons]
    · have he : x.completeHeads (g :: gs) = ([], g :: gs) := by rw [completeHeads, if_neg hg]
      rw [he]
      refine ⟨[], rfl, by simp, rfl, fun a ha => ?_⟩
      obtain rfl := Option.some.inj ha
      simpa using hg

/-! ### The choice of a slot (R126, R127) -/

theorem lowestSeal_mem {l : List (Nat × Slot)} {e : Nat × Slot} (h : lowestSeal l = some e) : e ∈ l := by
  induction l generalizing e with
  | nil => simp [lowestSeal] at h
  | cons f fs ih =>
    unfold lowestSeal at h
    split at h
    · exact Option.some.inj h ▸ List.mem_cons_self
    · next g hg =>
      split at h
      · exact Option.some.inj h ▸ List.mem_cons_self
      · exact List.mem_cons_of_mem f (Option.some.inj h ▸ ih hg)

theorem lowestSeal_le {l : List (Nat × Slot)} {e : Nat × Slot} (h : lowestSeal l = some e) :
    ∀ f ∈ l, e.2.sealNo.getD 0 ≤ f.2.sealNo.getD 0 := by
  induction l generalizing e with
  | nil => simp [lowestSeal] at h
  | cons f fs ih =>
    unfold lowestSeal at h
    split at h
    · next hn =>
      obtain rfl := Option.some.inj h
      intro g hg
      rcases List.mem_cons.mp hg with rfl | hg
      · exact Nat.le_refl _
      · cases fs with
        | nil => simp at hg
        | cons a as =>
          unfold lowestSeal at hn
          split at hn
          · cases hn
          · split at hn <;> cases hn
    · next g hg =>
      split at h
      · next hle =>
        obtain rfl := Option.some.inj h
        intro a ha
        rcases List.mem_cons.mp ha with rfl | ha
        · exact Nat.le_refl _
        · exact Nat.le_trans hle (ih hg a ha)
      · next hgt =>
        obtain rfl := Option.some.inj h
        intro a ha
        rcases List.mem_cons.mp ha with rfl | ha
        · omega
        · exact ih hg a ha

/-! ### What has completed at the meter (R42, R54) -/

theorem MeterSvc.hasCompleted_iff (x : MeterSvc) (m : Mi) :
    x.hasCompleted m = true ↔
      (∃ a, x.runStart = some a ∧ a ≤ m) ∧ (∃ c, x.lastCompleted = some c ∧ m ≤ c) ∧
        ∀ p ∈ x.passed, ¬ (p.first ≤ m ∧ m < p.behind) := by
  unfold hasCompleted MiSpan.has
  rcases x.runStart with _ | a <;> rcases x.lastCompleted with _ | c <;> simp [and_assoc]

/-- R54: an entry is finished when every MI from its start to its end minus one has completed. -/
theorem MeterSvc.finished_iff (x : MeterSvc) (g : MeterSegment) :
    x.finished g = true ↔
      ∃ e, g.endMi = some e ∧ g.start < e ∧ ∀ m, g.start ≤ m → m < e → x.hasCompleted m = true := by
  unfold finished
  rcases g.endMi with _ | e
  · simp
  · simp only [Bool.and_eq_true, decide_eq_true_eq, List.all_eq_true, Option.some.injEq, exists_eq_left', hasCompleted_iff]
    constructor
    · rintro ⟨⟨⟨lt, ⟨a, ha, start⟩, -⟩, -, ⟨c, hc, last⟩, -⟩, gaps⟩
      refine ⟨lt, fun m hm he => ⟨⟨a, ha, le_trans start hm⟩, ⟨c, hc, le_trans (Nat.le_sub_one_of_lt he) last⟩, ?_⟩⟩
      exact fun p hp h => absurd (lt_of_lt_of_le (lt_min he h.2) (gaps p hp)) (not_lt.mpr (max_le hm h.1))
    · rintro ⟨lt, all⟩
      have pos := Nat.lt_of_le_of_lt (Nat.zero_le _) lt
      refine ⟨⟨⟨lt, all _ le_rfl lt⟩, all _ (Nat.le_sub_one_of_lt lt) (Nat.sub_lt pos one_pos)⟩, fun p hp => ?_⟩
      by_contra h
      rw [not_le, lt_min_iff] at h
      exact (all _ (le_max_left _ _) h.1).2.2 p hp ⟨le_max_right _ _, h.2⟩

end Sys2Proof.Machine
end

