-- ==== Sys2Proof/Laws/Store.lean ====
section
/-!
SUPPORT. The chunk table: reading after writing, and its canonical form kept by every operation on it.
-/

namespace Sys2Proof.Machine

/-! ### Reading after writing -/

theorem slotAt_putSlot_same (n : Nat) (x : Slot) (l : List (Nat × Slot)) : slotAt n (putSlot n x l) = some x := by
  induction l with
  | nil => simp [putSlot, slotAt]
  | cons e es ih =>
    unfold putSlot
    split
    · next h => simp [slotAt, Nat.ne_of_lt h, ih]
    · split <;> simp [slotAt]

theorem slotAt_putSlot_other {n m : Nat} (h : m ≠ n) (x : Slot) (l : List (Nat × Slot)) :
    slotAt m (putSlot n x l) = slotAt m l := by
  induction l with
  | nil => simp [putSlot, slotAt, Ne.symm h]
  | cons e es ih =>
    unfold putSlot
    split
    · simp [slotAt, ih]
    · split
      · next he => simp [slotAt, Ne.symm h, he]
      · simp [slotAt, Ne.symm h]

theorem slotAt_dropSlot_same (n : Nat) (l : List (Nat × Slot)) : slotAt n (dropSlot n l) = none := by
  induction l with
  | nil => rfl
  | cons e es ih =>
    by_cases he : e.1 = n
    · simpa [dropSlot, he] using ih
    · simpa [dropSlot, slotAt, he] using ih

theorem slotAt_dropSlot_other {n m : Nat} (h : m ≠ n) (l : List (Nat × Slot)) :
    slotAt m (dropSlot n l) = slotAt m l := by
  induction l with
  | nil => rfl
  | cons e es ih =>
    by_cases he : e.1 = n
    · have : e.1 ≠ m := fun hm => h (hm.symm.trans he)
      simpa [dropSlot, slotAt, he, Ne.symm h] using ih
    · by_cases hm : e.1 = m
      · simp [dropSlot, slotAt, hm, h]
      · simpa [dropSlot, slotAt, he, hm] using ih

/-! ### The canonical form -/

/-- A rising chunk table, place by place: its head lies below every other slot it lists. -/
theorem risingSlots_cons (e : Nat × Slot) (l : List (Nat × Slot)) :
    risingSlots (e :: l) = true ↔ (∀ f ∈ l, e.1 < f.1) ∧ risingSlots l = true := by
  induction l generalizing e with
  | nil => simp [risingSlots]
  | cons f l ih =>
    simp only [risingSlots, Bool.and_eq_true, decide_eq_true_eq, List.mem_cons, forall_eq_or_imp]
    constructor
    · rintro ⟨h, hr⟩
      exact ⟨⟨h, fun g hg => Nat.lt_trans h (((ih f).mp hr).1 g hg)⟩, hr⟩
    · rintro ⟨⟨h, _⟩, hr⟩
      exact ⟨h, hr⟩

theorem fst_mem_putSlot {n : Nat} {x : Slot} {l : List (Nat × Slot)} {e : Nat × Slot} (h : e ∈ putSlot n x l) :
    e = (n, x) ∨ e ∈ l := by
  induction l with
  | nil => simpa [putSlot] using h
  | cons f fs ih =>
    unfold putSlot at h
    split at h
    · rcases List.mem_cons.mp h with h | h
      · exact .inr (h ▸ List.mem_cons_self)
      · exact (ih h).imp_right (List.mem_cons_of_mem f)
    · split at h
      · exact (List.mem_cons.mp h).imp_right (List.mem_cons_of_mem f)
      · exact List.mem_cons.mp h

theorem risingSlots_putSlot (n : Nat) (x : Slot) {l : List (Nat × Slot)} (h : risingSlots l = true) :
    risingSlots (putSlot n x l) = true := by
  induction l with
  | nil => rfl
  | cons e es ih =>
    obtain ⟨he, hes⟩ := (risingSlots_cons e es).mp h
    unfold putSlot
    split
    · next hlt =>
      refine (risingSlots_cons _ _).mpr ⟨fun f hf => ?_, ih hes⟩
      rcases fst_mem_putSlot hf with rfl | hf
      · exact hlt
      · exact he f hf
    · next hge =>
      split
      · next heq => exact (risingSlots_cons _ _).mpr ⟨fun f hf => heq ▸ he f hf, hes⟩
      · next hne =>
        have hn : n < e.1 := by omega
        refine (risingSlots_cons _ _).mpr ⟨fun f hf => ?_, h⟩
        rcases List.mem_cons.mp hf with rfl | hf
        · exact hn
        · exact Nat.lt_trans hn (he f hf)

theorem risingSlots_filter (p : Nat × Slot → Bool) {l : List (Nat × Slot)} (h : risingSlots l = true) :
    risingSlots (l.filter p) = true := by
  induction l with
  | nil => rfl
  | cons e es ih =>
    obtain ⟨he, hes⟩ := (risingSlots_cons e es).mp h
    by_cases hp : p e = true
    · rw [List.filter_cons_of_pos hp]
      exact (risingSlots_cons _ _).mpr ⟨fun f hf => he f (List.mem_filter.mp hf).1, ih hes⟩
    · rw [List.filter_cons_of_neg hp]
      exact ih hes

theorem risingSlots_dropSlot (n : Nat) {l : List (Nat × Slot)} (h : risingSlots l = true) :
    risingSlots (dropSlot n l) = true :=
  risingSlots_filter _ h

theorem risingSlots_map (f : Nat × Slot → Nat × Slot) (hf : ∀ e, (f e).1 = e.1) {l : List (Nat × Slot)}
    (h : risingSlots l = true) : risingSlots (l.map f) = true := by
  induction l with
  | nil => rfl
  | cons e es ih =>
    obtain ⟨he, hes⟩ := (risingSlots_cons e es).mp h
    refine (risingSlots_cons _ _).mpr ⟨fun g hg => ?_, ih hes⟩
    obtain ⟨a, ha, rfl⟩ := List.mem_map.mp hg
    rw [hf, hf]
    exact he a ha

/-- In a rising chunk table, a slot holds exactly what its entry says. -/
theorem slotAt_eq_some_iff {n : Nat} {x : Slot} {l : List (Nat × Slot)} (h : risingSlots l = true) :
    slotAt n l = some x ↔ (n, x) ∈ l := by
  induction l with
  | nil => simp [slotAt]
  | cons e es ih =>
    obtain ⟨he, hes⟩ := (risingSlots_cons e es).mp h
    unfold slotAt
    split
    · next hn =>
      constructor
      · rintro hx
        obtain rfl := Option.some.inj hx
        exact hn ▸ List.mem_cons_self
      · intro hm
        rcases List.mem_cons.mp hm with hm | hm
        · rw [← hm]
        · have := he _ hm
          simp only at this
          omega
    · next hn =>
      rw [ih hes]
      constructor
      · exact List.mem_cons_of_mem e
      · intro hm
        rcases List.mem_cons.mp hm with hm | hm
        · exact absurd (by rw [← hm]) hn
        · exact hm

/-! ### The operations of the store -/

theorem Store.update_slots_rising (x : Store) (n : Nat) (f : Slot → Slot) (h : risingSlots x.slots = true) :
    risingSlots (x.update n f).slots = true := by
  unfold Store.update
  split
  · exact h
  · exact risingSlots_putSlot n _ h

theorem Store.countHold_slots_rising (x : Store) (g : Hold) (f : Nat → Nat) (h : risingSlots x.slots = true) :
    risingSlots (x.countHold g f).slots = true := by
  refine risingSlots_map _ (fun e => ?_) h
  split <;> rfl

theorem Store.returnAll_slots_rising (x : Store) (h : risingSlots x.slots = true) :
    risingSlots x.returnAll.slots = true := by
  refine risingSlots_map _ (fun e => ?_) h
  split <;> rfl

/-- The backlog test changes nothing of the store but its backlog state. -/
theorem Store.testBacklog_eq (x : Store) (t : Option Mi) :
    (x.testBacklog t).1 = { x with backlog := (x.testBacklog t).1.backlog } := by
  unfold Store.testBacklog
  dsimp only
  split <;> split <;> rfl

theorem State.reset_slots_rising : risingSlots State.reset.store.slots = true := rfl

end Sys2Proof.Machine
end

