-- ==== Sys2Proof/WellFormed.lean ====
section
/-!
DEFINITION. The commands that can come: every operand is one that its pin, its lane or its field can carry. The meanings
do not rest on it; a statement about what the outside can command may.
-/

namespace Sys2Proof

/-! ### Checks of one operand -/

/-- An MI number (R1). -/
def wfMi (m : Mi) : Bool := decide (m < 2 ^ 40)

/-- An MI number, where there is one. -/
def wfMi? (m : Option Mi) : Bool :=
  match m with
  | none => true
  | some m => wfMi m

/-- A field of one byte (10.8.1). -/
def wfByte (n : Nat) : Bool := decide (n < 2 ^ 8)

/-- A field of two bytes (10.8.1). -/
def wfShort (n : Nat) : Bool := decide (n < 2 ^ 16)

/-- A field of four bytes (10.8.1). -/
def wfLong (n : Nat) : Bool := decide (n < 2 ^ 32)

/-- A sequence (10.8.1). -/
def wfSequence (n : Nat) : Bool := decide (n < 2 ^ 48)

/-- A level code as carried (10.8.1). -/
def wfCode (c : Int) : Bool := decide (-2 ^ 15 ≤ c) && decide (c < 2 ^ 15)

/-- An instance (R20). -/
def wfInstance (n : Nat) : Bool := decide (1 ≤ n) && decide (n ≤ max32)

/-- A segment id, where there is one (2.2.1). -/
def wfId? (id : Option Nat) : Bool :=
  match id with
  | none => true
  | some n => wfLong n

/-- An argument behind a marker. -/
def wfArg {α : Type} (check : α → Bool) : Arg α → Bool
  | .value a => check a
  | .dflt => true
  | .absent => true
  | .badMarker => true

/-- A sample frame: 8 channels of 24-bit signed samples (1.2.1). -/
def wfFrame (f : SampleFrame) : Bool :=
  f.length == 8 && f.all fun x => decide (-2 ^ 23 ≤ x) && decide (x < 2 ^ 23)

/-- A judgment: a present one carries a count of R8. -/
def wfJudgment : Judgment → Bool
  | .present n => decide (4780 ≤ n) && decide (n ≤ 4820)
  | .absent => true

/-- A caption packet as carried (5.1). -/
def wfPacket (p : CaptionPacket) : Bool :=
  decide (p.stream < 8) && wfByte p.kind && wfByte p.row && wfByte p.count && p.chars.length == p.count
    && (match p.duration with
        | none => true
        | some d => wfShort d)

/-- A proxy frame as carried (1.4). -/
def wfProxy (f : ProxyFrame) : Bool := wfByte f.position

/-- A proxy frame as a lane hands it on: the valid mark stands only on a whole frame of a position of the second
(R11). -/
def wfProxyChecked (f : ProxyFrame) : Bool :=
  wfProxy f && (!f.valid || (f.bytes.length == 12288 && decide (f.position < 25)))

/-- A descriptor as carried (R22). -/
def wfDesc (d : DescArgs) : Bool :=
  wfLong d.id && wfMi d.start && wfByte d.cls && wfByte d.profile && wfLong d.planned

/-- A channel list as carried (10.5). -/
def wfChannels (l : List (Nat × Nat)) : Bool :=
  wfByte l.length && l.all fun e => wfByte e.1 && wfByte e.2

/-- The fields of CONFIGURE SERVICE (10.8.1). -/
def wfServiceArgs (a : ServiceArgs) : Bool :=
  wfArg wfByte a.audioLane && wfArg wfChannels a.channels && wfArg wfByte a.captionLane
    && wfArg wfByte a.captionStream && wfArg wfShort a.rowMask && wfArg wfCode a.speechFloor
    && wfArg wfLong a.streamTimeout && wfArg wfByte a.proxyLane && wfArg wfLong a.normalKeep
    && wfArg wfLong a.reducedKeep && wfArg wfByte a.recording && wfArg wfByte a.priority && wfArg wfByte a.overwrite
    && wfArg wfByte a.profile && wfArg wfLong a.unschedPlanned && wfArg wfLong a.holdGuard

/-- The fields of WRITE PROFILE (10.8.1). -/
def wfProfileArgs (a : ProfileArgs) : Bool :=
  wfArg wfCode a.target && wfArg wfShort a.tolerance && wfArg wfCode a.shortTerm && wfArg wfCode a.peak
    && wfArg wfShort a.relative && wfArg wfByte a.captions && wfArg wfShort a.minCoverage && wfArg wfLong a.maxGap
    && wfArg wfLong a.overrun

/-- The values of SET RESERVES (10.8.1). -/
def wfReserveArgs (a : ReserveArgs) : Bool :=
  wfArg wfLong a.reserve0 && wfArg wfLong a.reserve1 && wfArg wfLong a.reserve2 && wfArg wfLong a.threshold

/-- The fields of SET ROUTE (10.8.1). -/
def wfRouteArgs (a : RouteArgs) : Bool :=
  wfByte a.enable && wfByte a.kind && wfByte a.value && wfByte a.mask && wfByte a.port

/-- Segment opened (R31). -/
def wfOpened (m : SegOpened) : Bool := wfInstance m.inst && wfId? m.id && wfMi m.start

/-- Segment closed (R31): a segment that a message closes has at least one MI. -/
def wfClosed (m : SegClosed) : Bool :=
  wfInstance m.inst && wfMi m.start && wfMi m.endMi && decide (m.start < m.endMi)

/-- An on-air message (R31). -/
def wfOnAir (m : OnAirMsg) : Bool := wfInstance m.inst && wfId? m.id && wfMi m.start

/-- An MI result (R53): an audible MI is judged. -/
def wfResult (r : MiResult) : Bool := wfInstance r.inst && wfMi r.mi && (!r.audible || r.judged)

/-! ### The check of a command -/

/-- Every operand of the command is one that can be carried. -/
def wellFormed : Instr → Bool
  | .powerOnReset _ => true
  | .warmReset _ _ => true
  | .referenceEdge elapsed => decide (elapsed ≤ 110000)
  | .referenceWatchExpiry => true
  | .oscillatorEdge => true
  | .lockGained _ => true
  | .lockLost _ => true
  | .laneSampleFrame _ f => wfFrame f
  | .lanePeriodEdge _ e => wfMi? e.tick
  | .laneCaptionPacket _ p => wfPacket p
  | .laneProxyFrame _ f => wfProxy f
  | .setTime _ m => wfMi m
  | .readStatus _ n => wfByte n
  | .configureService _ n a => wfByte n && wfServiceArgs a
  | .startService _ n => wfByte n
  | .stopService _ n => wfByte n
  | .stage _ n d => wfByte n && wfDesc d
  | .withdraw _ n id => wfByte n && wfLong id
  | .configureGroup _ g m => wfByte g && wfShort m
  | .groupStage _ g d => wfByte g && wfDesc d
  | .readSchedule _ n => wfByte n
  | .scheduleMiTick t _ => wfMi t
  | .recordingStateChanged _ _ m n => wfMi m && wfInstance n
  | .meterRunStarted _ => true
  | .meterSegmentOpened _ m => wfOpened m
  | .meterSegmentClosed _ m => wfClosed m
  | .meterRunEnded _ e => wfMi? e
  | .meterSampleFrame _ m f => wfMi m && wfFrame f
  | .meterJudgment _ m j => wfMi m && wfJudgment j
  | .meterMiTick t => wfMi t
  | .meterMiCompletion _ => true
  | .meterSummary _ => true
  | .startSurvey _ n k => wfByte n && wfByte k
  | .stopSurvey _ n => wfByte n
  | .readSurvey _ n => wfByte n
  | .readMeter _ n => wfByte n
  | .checkerRunStarted _ => true
  | .checkerSegmentOpened _ m => wfOpened m
  | .checkerSegmentClosed _ m => wfClosed m
  | .checkerRunEnded _ e => wfMi? e
  | .checkerCaptionPacket _ p => wfPacket p
  | .checkerMiTick t => wfMi t
  | .rowPersistenceExpiry _ _ => true
  | .captionStreamExpiry _ => true
  | .miResult _ r => wfResult r
  | .captionCombination _ => true
  | .captionSummary _ => true
  | .meterSummaryArrival _ n _ => wfInstance n
  | .captionSummaryArrival _ n _ => wfInstance n
  | .recordWrite => true
  | .holdAnswer _ => true
  | .writeProfile _ n a => wfByte n && wfProfileArgs a
  | .collect _ n => wfSequence n
  | .readLog _ n => wfSequence n
  | .recorderRunStarted _ => true
  | .onAirMessage _ m => wfOnAir m
  | .recorderRunEnded _ e => wfMi? e
  | .recorderSampleFrame _ m f => wfMi m && wfFrame f
  | .recorderJudgment _ m j => wfMi m && wfJudgment j
  | .recorderCaptionPacket _ m p => wfMi m && wfPacket p
  | .recorderProxyFrame _ m f => wfMi m && wfProxyChecked f
  | .recorderMiTick t => wfMi t
  | .spanBoundary _ => true
  | .configureStore _ n => wfLong n
  | .setReserves _ a => wfReserveArgs a
  | .readChunkReview _ n i m o k => wfShort n && wfByte i && wfMi m && wfLong o && wfShort k
  | .appendStored _ n m => wfShort n && wfMi m
  | .appendGap _ m => wfMi m
  | .removeEntry _ n m => wfShort n && wfMi m
  | .markLost _ n m => wfShort n && wfMi m
  | .findClip _ n m => wfByte n && wfMi m
  | .createHold _ n a b => wfByte n && wfMi a && wfMi b
  | .automaticHoldRequest _ a b n => wfMi a && wfMi b && wfSequence n
  | .releaseHold _ n => wfByte n
  | .fixHold _ n => wfByte n
  | .readHolds _ => true
  | .take _ d => wfArg wfLong d
  | .readChunk _ n t o k => wfShort n && wfShort t && wfLong o && wfShort k
  | .confirm _ n t => wfShort n && wfShort t
  | .returnTake _ n t => wfShort n && wfShort t
  | .readArchiveStatus _ => true
  | .archivePeriodEdge b => wfMi? b
  | .takeTimerExpiry n => wfShort n
  | .linkAlignment _ => true
  | .linkDown _ => true
  | .linkSilenceTimeout _ => true
  | .frameReceived _ => true
  | .requestService _ => true
  | .noticeArrival n => wfMi? n.mi
  | .attentionPulse _ => true
  | .setRoute _ n a => wfByte n && wfRouteArgs a
  | .setAttentionMode _ p m => wfByte p && wfByte m
  | .readNotice _ => true
  | .counterIncrement _ => true
  | .setAlertMask _ n => wfShort n
  | .readCounters _ n => wfByte n
  | .clearAlerts _ n => wfByte n
  | .clearCounters _ n => wfByte n
  | .startSymbol _ => true
  | .dataSymbol _ _ => true

end Sys2Proof
end

