-- ==== Sys2Proof/Tests/Slice0.lean ====
section
/-!
SUPPORT. Tests: an ill-formed command for every check of WellFormed, which the check refuses; values that the manual works
out; one step of many commands; and, for every statement with hypotheses, a state and operands that meet them, clause by
clause and at the ends of their ranges.
-/

namespace Sys2Proof.Tests

open Sys2Proof Sys2Proof.Machine

set_option maxRecDepth 20000
set_option Elab.async false

/-! ### Small states and operands -/

/-- A request of port 0 commanded directly. -/
def rq : Req := ⟨0, 0x11, none⟩

/-- After reset, with station time 100. -/
def timed : State := { State.reset with station := { Station.powerOn with time := some 100 } }

/-- The open segment of id 7 that began at 100, planned for 10 MIs. -/
def seg : Segment :=
  { inst := 1, id := some 7, cls := .programme, profile := 0, planned := 10, stagedStart := 100, actualStart := 100
    endMi := none, cause := none, late := false, referenceLost := false, incomplete := false, meterSummary := none
    captionSummary := none }

/-- A service in a state, with nothing else. -/
def inState (k : SvcState) : ServiceSched := { ServiceSched.powerOn with state := k }

/-- A RUNNING service with that segment open. -/
def running : ServiceSched :=
  { inState .running with openSeg := some seg, instCounter := 1, runInst := some 1 }

/-- Service 0 with that schedule state. -/
def scheduled (x : ServiceSched) : State := timed.setSched 0 x

/-- A descriptor of id `n` that starts at `m`. -/
def desc (n : Nat) (m : Mi) : Descriptor := ⟨n, m, .programme, 0, 10⟩

/-- The arguments of such a descriptor. -/
def descArgs (n : Nat) (m : Mi) : DescArgs := ⟨n, m, 0, 0, 10⟩

/-- An empty chunk that starts at 100. -/
def chunk : Chunk := Chunk.empty 100 0

/-- A slot of service 0 that starts at 100. -/
def slot (k : SlotState) (n : Option Nat) : Slot :=
  { state := k, svc := 0, start := 100, keepUsed := .normal, sealNo := n, holdCount := 0, length := 388096
    cutShort := false, fillFrames := false, chunk := chunk }

/-- A store whose slot 0 is that slot. -/
def stored (x : Slot) : State := { timed with store := { Store.powerOn with slots := [(0, x)], sealCount := 1 } }

/-- A recorder that runs, in the span from 100 in slot `n`. -/
def recording (n : Option Nat) : RecorderSvc :=
  { RecorderSvc.powerOn 0 with
    run := .active, runStart := some 100, enable := some true, span := some ⟨100, n, 0⟩, state := some .recording
    runInst := some 1 }

/-- The meter's entry of a segment that began at 100. -/
def meterSeg : MeterSegment :=
  { inst := 1, cls := .programme, start := 100, endMi := none, mis := 0, absentMis := 0, positions := 0
    histogram := Vector.replicate 150 0, belowGate := 0, excluded := 0, overRange := 0, maxMomentary := none
    maxShortTerm := none, maxSample := 0 }

/-- A meter that measures that segment. -/
def measuring : MeterSvc :=
  { MeterSvc.powerOn 0 with run := .measuring, runStart := some 100, segments := [meterSeg] }

/-- The checker's entry of that segment. -/
def captionSeg : CaptionSegment :=
  { inst := 1, id := some 7, cls := .programme, profile := 0, start := 100, endMi := none, combined := 0, judged := 0
    audible := 0, covered := 0, lost := 0, gapRun := 0, gapFirst := none, gapCounted := false, gapCount := 0
    longestGap := 0 }

/-- A checker that measures that segment, its stream LIVE. -/
def checking : CheckerSvc :=
  { CheckerSvc.powerOn 0 with
    run := .measuring, runStart := some 100, stream := .live, timer := 50, segments := [captionSeg] }

/-- A meter summary with an integrated code. -/
def summary (c : Option Int) : MeterSummary := { MeterSummary.missing with integrated := c, peak := some (-20) }

/-- The record of that segment under sequence `n`. -/
def record (n : Nat) : Record :=
  assembleRecord n 0 { seg with endMi := some 110, cause := some .next, meterSummary := some (summary (some (-230))) }
    Profile.default none

/-- A log of one record. -/
def logged : State :=
  { timed with compliance := { Compliance.powerOn with log := [record 1], nextSeq := 2 } }

/-! ### Ill-formed commands -/

theorem wf_refuses_mi : wellFormed (.setTime rq (2 ^ 40)) = false := by decide
theorem wf_refuses_optional_mi : wellFormed (.archivePeriodEdge (some (2 ^ 40))) = false := by decide
theorem wf_refuses_byte : wellFormed (.startService rq 256) = false := by decide
theorem wf_refuses_short : wellFormed (.configureGroup rq 0 65536) = false := by decide
theorem wf_refuses_long : wellFormed (.configureStore rq (2 ^ 32)) = false := by decide
theorem wf_refuses_sequence : wellFormed (.collect rq (2 ^ 48)) = false := by decide
theorem wf_refuses_code :
    wellFormed (.writeProfile rq 0 ⟨.value 32768, .dflt, .dflt, .dflt, .dflt, .dflt, .dflt, .dflt, .dflt⟩) = false := by
  decide
theorem wf_refuses_instance : wellFormed (.meterSummaryArrival 0 0 (summary none)) = false := by decide
theorem wf_refuses_id : wellFormed (.onAirMessage 0 ⟨1, some (2 ^ 32), 0⟩) = false := by decide
theorem wf_refuses_argument : wellFormed (.take rq (.value (2 ^ 32))) = false := by decide
theorem wf_refuses_frame_of_seven : wellFormed (.laneSampleFrame 0 [0, 0, 0, 0, 0, 0, 0]) = false := by decide
theorem wf_refuses_sample : wellFormed (.laneSampleFrame 0 [2 ^ 23, 0, 0, 0, 0, 0, 0, 0]) = false := by decide
theorem wf_refuses_judgment : wellFormed (.meterJudgment 0 0 (.present 4779)) = false := by decide
theorem wf_refuses_packet : wellFormed (.laneCaptionPacket 0 ⟨8, 3, 0, 0, none, []⟩) = false := by decide
theorem wf_refuses_proxy : wellFormed (.laneProxyFrame 0 ⟨[], 256, true⟩) = false := by decide
theorem wf_refuses_checked_proxy : wellFormed (.recorderProxyFrame 0 0 ⟨[], 0, true⟩) = false := by decide
theorem wf_refuses_descriptor : wellFormed (.stage rq 0 ⟨2 ^ 32, 0, 0, 0, 0⟩) = false := by decide
theorem wf_refuses_channels :
    wellFormed (.configureService rq 0 ⟨.dflt, .value [(256, 100)], .dflt, .dflt, .dflt, .dflt, .dflt, .dflt, .dflt,
      .dflt, .dflt, .dflt, .dflt, .dflt, .dflt, .dflt⟩) = false := by decide
theorem wf_refuses_service_field :
    wellFormed (.configureService rq 0 ⟨.value 256, .dflt, .dflt, .dflt, .dflt, .dflt, .dflt, .dflt, .dflt,
      .dflt, .dflt, .dflt, .dflt, .dflt, .dflt, .dflt⟩) = false := by decide
theorem wf_refuses_reserve : wellFormed (.setReserves rq ⟨.dflt, .value (2 ^ 32), .dflt, .dflt⟩) = false := by decide
theorem wf_refuses_route : wellFormed (.setRoute rq 0 ⟨1, 256, 0, 0, 0⟩) = false := by decide
theorem wf_refuses_opened : wellFormed (.meterSegmentOpened 0 ⟨2 ^ 32, none, .advert, 0, 0⟩) = false := by decide
theorem wf_refuses_closed : wellFormed (.checkerSegmentClosed 0 ⟨1, 100, 100⟩) = false := by decide
theorem wf_refuses_result : wellFormed (.miResult 0 ⟨1, 100, false, true⟩) = false := by decide
theorem wf_refuses_edge : wellFormed (.referenceEdge 110001) = false := by decide

/-! ### Values that the manual works out -/

/-- R172: the check value of the CRC. -/
theorem crc_check_value : crcOf [0x31, 0x32, 0x33, 0x34, 0x35, 0x36, 0x37, 0x38, 0x39] = 0x29B1#16 := by decide +kernel

/-- 3.4: the level code of a mean energy. -/
theorem loudness_code_of_example : loudnessCode (5 / 1000) = some (-237) := by decide +kernel

/-- R51: the peak code of half scale. -/
theorem peak_code_of_half_scale : peakCode (2 ^ 22) = some (-60) := by decide +kernel

/-- 1.5.4: a channel of 8 or more and a weight of neither value are replaced, and the record says so. -/
theorem channel_list_is_clamped :
    (channelList [(9, 120), (1, 121)]).map (fun c => (c.val, c.changed))
      = some ([⟨7, .w100⟩, ⟨1, .w141⟩], true) := by decide

/-- R120: counts half-way and at the ends. -/
theorem store_count_is_nearest :
    (storeCount 6144).val = 8192 ∧ (storeCount 6143).val = 4096 ∧ (storeCount 0).val = 4096
      ∧ (storeCount 70000).val = 65536 := by decide

/-- R113: with one record held, the oldest held is 1. -/
theorem oldest_held_of_one : logged.compliance.oldestHeld = 1 := by decide

/-- R105, R106: at the tolerance the check passes, one code beyond it fails. -/
theorem loudness_check_at_its_edge :
    checkLoudness Profile.default (some (-220)) = .pass ∧ checkLoudness Profile.default (some (-219)) = .fail
      ∧ checkCeiling (some (-10)) (some (-9)) = .fail := by decide

/-- 10.8: a notice record takes 24 bytes. -/
theorem notice_takes_24_bytes :
    (noticeBytes ⟨⟨.recordingGap, some 3, some 100, .priority 1⟩, 0⟩).length = 24 := by decide

/-- The table has no bits, so no word spells a command. -/
theorem no_word_spells_a_command : decodeTableWord 32 0 = none := rfl

/-! ### Single steps -/

/-- R4: the first reference edge after power-on locks the part, and with station time UNSET raises no MI tick. -/
theorem first_edge_locks :
    (match exec (.referenceEdge 100000) State.reset with
      | .next t => decide (t.station.ref = .locked ∧ t.station.time = none ∧ .scheduleMiTick 0 true ∉ t.inFlight)
      | _ => false) = true := by decide +kernel

/-- R187: the increment to 2^31 sets HALF and raises its notice. -/
theorem increment_to_half :
    (match exec (.counterIncrement .logRecordsLost)
        { State.reset with bank := State.reset.bank.setCell .logRecordsLost { CounterCell.zero with value := 2 ^ 31 - 1 } } with
      | .next t => decide ((t.bank.cell .logRecordsLost).half = true ∧
          t.inFlight = [notice .counterHalf none none (.counter .logRecordsLost)])
      | _ => false) = true := by decide +kernel

/-- R175: straps of the value 1 give CONSOLE; of two ports strapped CONSOLE the higher one becomes OBSERVER. -/
theorem second_console_observes :
    (match exec (.powerOnReset ⟨⟨false, true⟩, ⟨false, false⟩, ⟨false, true⟩⟩) State.reset with
      | .next t => decide (t.ports[0].role = .console ∧ t.ports[2].role = .observer ∧ t.ports[2].strap = .console)
      | _ => false) = true := by decide +kernel

/-- R173: the fifth request is answered BUSY. -/
theorem fifth_request_is_busy :
    (Port.takeRequest { Port.powerOn .playout .playout with link := .up, queue := List.replicate 4 ⟨0, 0, []⟩ } ⟨9, 0, []⟩).1.out
      = [⟨9, .busy, .nothing⟩] := by decide

/-- R178: a link that is lost discards the requests behind the one in service, which stays. -/
theorem link_loss_keeps_the_request_in_service :
    ({ Port.powerOn .playout .playout with
        link := .up, queue := [⟨1, 4, []⟩, ⟨2, 4, []⟩], serving := some 1 } : Port).linkLost.queue = [⟨1, 4, []⟩] := by decide

/-- 10.8.1: the five bytes of a route, the kind ANY as FF. -/
theorem route_takes_five_bytes : answerBytes (.route ⟨true, none, 3, 0xF, 2⟩) = [1, 255, 3, 15, 2] := by decide

/-- R7: the interval of a lane whose period edge is still under way is the MI that the edge ends. -/
theorem lane_interval_ends_at_its_edge :
    (timed.send [.lanePeriodEdge 0 ⟨some 100, true⟩]).laneMi 0 = some 99 ∧
    (timed.send [.lanePeriodEdge 0 ⟨some 100, true⟩]).laneMi 1 = some 100 := by decide +kernel

/-- Service 0 in a state, with audio lane 0 taking a period edge 4 edges after a run opened. -/
def opened (k : SvcState) (l : List OpenSpan) : State :=
  let s := scheduled (inState k)
  { s with edges := 7, openSpans := s.openSpans.set 0 l }

/-- The services whose absent MI a period edge with a number counts at audio lane 0. -/
def countedAt (t : Mi) (s : State) : List Svc :=
  match exec (.lanePeriodEdge 0 ⟨some t, true⟩) s with
  | .next u => allSvcs.filter fun i => decide (increment .audioAbsentMi i ∈ u.inFlight)
  | _ => []

/-- R9: the edge under way to the lane ends interval 6, whatever its number: also when the number has wrapped (R1) or is of the
numbering before SET TIME. -/
theorem edge_counts_by_its_place :
    countedAt 0 ((opened .running [⟨3, none⟩]).send [.lanePeriodEdge 0 ⟨some 0, true⟩]) = [0] ∧
    countedAt 900 ((opened .running [⟨3, none⟩]).send [.lanePeriodEdge 0 ⟨some 900, true⟩]) = [0] ∧
    countedAt 100 ((opened .running [⟨7, none⟩]).send [.lanePeriodEdge 0 ⟨some 100, true⟩]) = [] := by decide +kernel

/-- R9: a service that has been started again counts an MI of its earlier run at a late lane, but not the MI that the stopping
tick ended. -/
theorem late_lane_counts_the_earlier_run :
    countedAt 100 ((opened .starting [⟨3, some 7⟩]).send [.lanePeriodEdge 0 ⟨some 100, true⟩]) = [0] ∧
    countedAt 100 ((opened .starting [⟨3, some 6⟩]).send [.lanePeriodEdge 0 ⟨some 100, true⟩]) = [] := by decide +kernel

/-- R9: an edge that was never sent is known by its number, also across the wrap. -/
theorem unsent_edge_is_known_by_its_number :
    (opened .running []).intervalOf 98 = 5 ∧
    { opened .running [] with station := { timed.station with time := some 1 } }.intervalOf (2 ^ 40 - 1) = 5 := by
  decide +kernel

/-- R181: an MI tick may fall between the two shares of the service part. -/
theorem status_shares_stand_on_either_side_of_a_tick :
    (match exec (.readStatus rq 1) ((scheduled (inState .starting)).setPort 0 { Port.powerOn .playout .playout with link := .up }) with
      | .next t =>
        match exec (.scheduleMiTick 101 true) t with
        | .next u =>
          match exec (.readStatus rq 1) u with
          | .next v =>
            match v.ports[(0 : PortNo)].out with
            | [⟨_, .ok, .service .starting false _⟩] =>
              decide (v.sched[(0 : Svc)].state = .running ∧ v.shares = [] ∧ .readStatus rq 1 ∉ v.inFlight)
            | _ => false
          | _ => false
        | _ => false
      | _ => false) = true := by decide +kernel

/-- R131, R135, R138: a cut after 3 MIs leaves nothing of the MI at offset 4 in the chunk. -/
theorem cut_drops_what_lies_beyond :
    let k := { chunk with audio := chunk.audio.set 4 [(1, 1)], absent := 16, packets := [⟨4, ⟨0, 3, 0, 0, none, []⟩⟩] }
    (k.keepBelow 3).audio[(4 : Fin 20)] = [] ∧ (k.keepBelow 3).absent = 0 ∧ (k.keepBelow 3).packets = [] := by
  decide +kernel

/-! ### The hypotheses of the statements are met -/

theorem witness_StepTakesTheFrontCommandOrAMessage :
    { State.reset with pending := [.oscillatorEdge] : State }.pending = .oscillatorEdge :: [] ∧
    State.reset.pending = [] ∧ State.reset.inFlight = [] ∧
    (State.reset.send [.oscillatorEdge]).inFlight = .oscillatorEdge :: [] := ⟨rfl, rfl, rfl, rfl⟩

/-- A port with one request, in service under pass 1. -/
def serving : State :=
  State.reset.setPort 0 { Port.powerOn .playout .playout with link := .up, queue := [⟨0x11, 4, []⟩], serving := some 1 }

theorem witness_ResponseLeavesThePort : serving.ports[(0 : PortNo)].serving = some 1 ∧ State.reset.ports[(0 : PortNo)].serving ≠ some 1 ∧
    serving.ports[(0 : PortNo)].link = .up ∧ State.reset.ports[(0 : PortNo)].link = .down := by
  decide +kernel

/-- A locked part. -/
def locked : State := { timed with station := { timed.station with ref := .locked, kind := .reference } }

theorem witness_PeriodEdgesInEachReferenceState : locked.station.ref = .locked ∧ State.reset.station.ref = .freeRun := ⟨rfl, rfl⟩

theorem witness_SetTimeLoadsStationTime :
    (2 ^ 40 - 1 < 2 ^ 40) ∧ (∀ i : Svc, timed.sched[i].state ≠ .starting ∧ timed.sched[i].state ≠ .running) ∧
    (∃ i : Svc, (scheduled running).sched[i].state = .starting ∨ (scheduled running).sched[i].state = .running) := by
  decide +kernel

/-- Audio lane 0 with the lock held. -/
def heldLane : State := timed.setLane 0 ⟨.held, false, 65535⟩

theorem witness_LaneInputGoesToBoundServices :
    State.reset.lanes[(0 : Lane)].lock = .notHeld ∧ heldLane.lanes[(0 : Lane)].lock = .held ∧
    heldLane.station.time = some 100 ∧ State.reset.station.time = none ∧
    (State.reset.setLane 0 ⟨.held, false, 0⟩).lanes[(0 : Lane)].lock = .held ∧
    heldLane.laneMi 0 = some 100 ∧ (heldLane.send [.lanePeriodEdge 0 ⟨some 100, true⟩]).laneMi 0 = some 99 ∧
    (heldLane.send [.lanePeriodEdge 0 ⟨some 0, true⟩]).laneMi 0 = some (2 ^ 40 - 1) ∧
    (heldLane.send [.lanePeriodEdge 0 ⟨none, true⟩]).laneMi 0 = none := by decide +kernel

theorem witness_LaneJudgesIntervalAtPeriodEdge :
    (⟨none, false⟩ : PeriodEdge).tick = none ∧ (⟨some 0, true⟩ : PeriodEdge).tick = some 0 ∧
    2 ^ 40 - 1 = (0 + (2 ^ 40 - 1)) % 2 ^ 40 := by decide

theorem witness_ConfigureServiceStoresAClampedRecord :
    timed.sched[(0 : Svc)].state = .disabled ∧ (scheduled running).sched[(0 : Svc)].state = .running ∧
    (scheduled (inState .starting)).sched[(15 : Svc)].state = .disabled ∧
    (readServiceArgs ⟨.value 16, .value [(0, 100)], .value 0, .value 0, .dflt, .dflt, .dflt, .absent, .dflt, .dflt, .value 0,
      .value 0, .value 0, .value 7, .dflt, .dflt⟩).isSome = true ∧
    7 < 8 ∧ 1 ≤ [(0, 100)].length ∧ (List.replicate 6 (0, 100)).length ≤ 6 ∧
    6 < (List.replicate 7 (0, 100)).length ∧ (Arg.dflt : Arg Nat) = .dflt ∧
    readServiceArgs ⟨.badMarker, .value [(0, 100)], .value 0, .value 0, .dflt, .dflt, .dflt, .absent, .dflt, .dflt, .value 0,
      .value 0, .value 0, .value 7, .dflt, .dflt⟩ = none ∧
    readServiceArgs ⟨.value 16, .value [(0, 100)], .value 0, .value 0, .dflt, .dflt, .dflt, .absent, .dflt, .dflt, .value 2,
      .value 0, .value 0, .value 7, .dflt, .dflt⟩ = none := by decide +kernel

theorem witness_ServicesStartAndStop :
    (scheduled (inState .ready)).sched[(0 : Svc)].state = .ready ∧ timed.station.time = some 100 ∧
    State.reset.station.time = none ∧ (scheduled (inState .starting)).sched[(0 : Svc)].state = .starting ∧
    (scheduled running).sched[(0 : Svc)].stopPending = false ∧
    (scheduled { running with stopPending := true }).sched[(0 : Svc)].stopPending = true := by decide +kernel

theorem witness_StageChecksInOrder :
    4 ≤ (4 : Nat) ∧ classOfCode 3 = some .junction ∧ (7 : Nat) = (7 : Fin 8).val ∧
    { running with stopPending := true }.stopPending = true ∧
    4 ≤ [desc 1 101, desc 2 102, desc 3 103, desc 4 104].length ∧
    (∃ e, [desc 1 101].getLast? = some e ∧ 101 ≤ e.start) ∧ running.openId = some 7 :=
  ⟨by decide, rfl, rfl, rfl, by decide, ⟨_, rfl, by decide⟩, rfl⟩

theorem witness_WithdrawFindsTheDescriptor :
    timed.sched[(0 : Svc)].state = .disabled ∧
    (∃ d ∈ { running with staging := [desc 1 101] }.staging, d.id = 1) ∧
    running.state ≠ .disabled ∧ (∀ d ∈ running.staging, d.id ≠ 7) ∧ running.openId = some 7 ∧ running.openId ≠ some 8 := by
  decide +kernel

theorem witness_ConfigureGroupReplacesMembership :
    (3 : Nat) = (3 : Fin 4).val ∧ 2 ^ 16 - 1 < 2 ^ 16 ∧ 4 ≤ (4 : Nat) ∧ 2 ^ 16 ≤ 2 ^ 16 := by decide

/-- Group 0 of service 0 alone. -/
def grouped (x : ServiceSched) : State := { scheduled x with groups := timed.groups.set 0 1 }

theorem witness_GroupStageIsAllOrNothing :
    (grouped running).groups[(0 : Fin 4)].getLsbD 0 = true ∧ running.state ≠ .disabled ∧
    (grouped running).sched[(0 : Svc)].state = .running ∧ (grouped (inState .starting)).groupReady 0 = false ∧
    running.stageCheck 8 101 = none ∧ running.stageCheck 7 101 = some .conflict ∧
    timed.groups[(0 : Fin 4)].getLsbD 0 = false ∧ classOfCode 3 = some .junction ∧ 4 ≤ (4 : Nat) ∧ 8 ≤ (8 : Nat) := by
  decide +kernel

/-- R26: a group whose only member is STARTING has none that is READY or RUNNING. -/
theorem test_group_of_starting_members_is_refused :
    exec (.groupStage rq 0 ⟨8, 101, 0, 0, 10⟩) (grouped (inState .starting)) =
      .next ((grouped (inState .starting)).refuse rq .state) := rfl

theorem witness_TickStopsOverrunsOrRollsOver :
    running.state = .running ∧ running.openSeg = some seg ∧ running.stopPending = false ∧
    { running with stopPending := true }.stopPending = true ∧ (∀ d ∈ running.staging, 160 < d.start) ∧
    159 < seg.actualStart + seg.planned + Profile.default.overrun ∧
    seg.actualStart + seg.planned + Profile.default.overrun ≤ 160 := by decide

theorem witness_TickOpensTheLastDueDescriptor :
    ([desc 1 101, desc 2 102, desc 3 103].filter fun e => decide (e.start ≤ 102)) = [desc 1 101] ++ [desc 2 102] ∧
    (inState .starting).state = .starting := by decide

theorem witness_RecordingStateMarksSegments :
    running.runInst ≠ some 2 ∧ running.runInst = some 1 ∧ running.view = .recording ∧
    { running with view := .notRecording, viewFrom := some 90 }.viewFrom = some 90 := by decide

/-- A closed segment that waits for its meter summary. -/
def closed : Segment :=
  { seg with endMi := some 110, cause := some .next, captionSummary := some CaptionSummary.missing }

theorem witness_SummaryCompletesTheHeadOfTheClosingSet :
    ([{ closed with meterSummary := some (summary none) }].takeWhile Segment.complete) ≠ [] ∧
    [closed].takeWhile Segment.complete = [] := by decide +kernel

theorem witness_RunsBeginAndEndInTheBlocks_and_SegmentMessagesAreTaken :
    (MeterSvc.powerOn 0).run = .idle ∧ measuring.run = .measuring ∧
    { measuring with run := .waiting }.run = .waiting ∧ checking.run = .measuring ∧
    (recording none).run = .active ∧ measuring.runStart = some 100 ∧ checking.runStart = some 100 ∧
    (measuring.segments.filter fun g => decide (g.start ≤ 99) && g.endMi.all fun e => decide (99 < e)) = [] ∧
    (measuring.segments.filter fun g => decide (g.start ≤ 100) && g.endMi.all fun e => decide (100 < e)).getLast?
      = some meterSeg := by decide +kernel

/-- A recorder in the span from 100, in slot 0, after `n` seals. -/
def fillingAfter (n : Nat) : State :=
  let s := (stored (slot .filling none)).setRecorder 0 (recording (some 0))
  { s with store := { s.store with sealCount := n } }

theorem witness_RunsBeginAndEndInTheBlocks_cut :
    ((fillingAfter 1).work 0).x.span = some ⟨100, some 0, 0⟩ ∧ ((fillingAfter 1).work 0).x.run = .active ∧
    slotAt 0 ((fillingAfter 1).work 0).store.slots = some (slot .filling none) ∧ (slot .filling none).start = 100 ∧
    min 100 (100 + 20) ≤ (slot .filling none).chunk.first ∧ (slot .filling none).chunk.first < min 101 (100 + 20) ∧
    ((fillingAfter (2 ^ 32 - 2)).work 0).store.sealCount < 2 ^ 32 - 1 ∧
    2 ^ 32 - 1 ≤ ((fillingAfter (2 ^ 32 - 1)).work 0).store.sealCount ∧ (recording none).span = some ⟨100, none, 0⟩ ∧
    (recording none).runStart = some 100 ∧ (RecorderSvc.powerOn 0).span = none := by decide +kernel

theorem witness_MeterHoldsTheDataOfAnMi :
    measuring.run ≠ .idle ∧ (∀ a, measuring.runStart = some a → a ≤ 100) ∧
    (∀ b, measuring.ring.getLast? = some b → b.mi < 100) ∧ measuring.input.Pairwise (fun a b => a.mi < b.mi) ∧
    (∃ a, measuring.runStart = some a ∧ 99 < a) ∧
    (∃ b, { measuring with ring := [⟨100, none⟩] }.ring.getLast? = some b ∧ 100 ≤ b.mi) :=
  ⟨by decide +kernel, fun a h => (by cases h; decide), fun b h => (by cases h), .nil, ⟨100, rfl, by decide⟩,
    ⟨_, rfl, by decide⟩⟩

/-- The data of MI 100, complete. -/
def heldMi : HeldMi := ⟨100, [], some .absent, true⟩

/-- A meter that has completed MI 100 and 101, both for a segment that ended at 101; the next one ended at 102. -/
def ended : MeterSvc :=
  { measuring with
    segments := [{ meterSeg with endMi := some 101, mis := 2 }, { meterSeg with inst := 2, start := 101, endMi := some 102 }]
    ring := [⟨100, none⟩, ⟨101, none⟩] }

theorem witness_MeterCompletesAndSummarises :
    { measuring with input := [heldMi] }.due = some (heldMi, .absent, meterSeg) ∧ measuring.due = none ∧
    ended.finished { meterSeg with endMi := some 101, mis := 2 } = true ∧ ended.finished meterSeg = false := by
  decide +kernel

/-- R54: MI 101 was attributed to the first segment before its end 101 was known; both summaries go out, in order. -/
theorem test_summary_of_an_early_mi : (ended.sendSummaries 0).2.length = 2 ∧ (ended.sendSummaries 0).1.segments = [] := by
  decide +kernel

/-- R54: an MI that has not completed holds back the summary of its own segment only. -/
theorem test_summary_waits_for_its_own_mis :
    ({ ended with passed := [⟨100, 101⟩] }.sendSummaries 0).1.segments.map (fun g : MeterSegment => g.inst) = [1] := by
  decide +kernel

/-- R42: an MI that completes passes over those below it of which nothing has come. -/
theorem test_completion_passes_over :
    (measuring.completeMi 0 { heldMi with mi := 103 } .absent meterSeg).1.passed = [⟨100, 103⟩] := by decide +kernel

theorem witness_ArrivalsLeaveNothingDue :
    ({ measuring with input := [heldMi] }.sendSummaries 0).1.due = some (heldMi, .absent, meterSeg) ∧
    (measuring.sendSummaries 0).1.due = none ∧ ended.segments.map ended.finished = [true, true] := by decide +kernel

/-- A meter that has completed 29 MIs of the segment, the last 29 with energy `e`, and an active survey of every class. -/
def loud (e : Rat) : MeterSvc :=
  { measuring with
    segments := [{ meterSeg with mis := 29 }], ring := List.replicate 29 ⟨128, some e⟩
    survey := { Survey.powerOn with state := .active, classes := 31 } }

/-- The meter after MI 129, present with no frames. -/
def louder (e : Rat) : MeterSvc :=
  ((loud e).completeMi 0 ⟨129, [], some (.present 4800), true⟩ (.present 4800) { meterSeg with mis := 29 }).1

theorem witness_CompletedMiJoinsRingAndGivesOneBlock_codes :
    (louder 1).ring.length = 30 ∧ (∀ b ∈ (louder 1).ring, b.energy ≠ none) ∧
    loudnessCode (3 / 4) = some (-19) ∧ (louder 1).lastBlock = .code (-19) ∧
    loudnessCode (3 / 4 / 10 ^ 7) = some (-719) ∧ (louder (1 / 10 ^ 7)).lastBlock = .belowGate ∧
    (loud 1).survey.state = .active ∧ (loud 1).survey.classes.getLsbD 0 = true ∧ measuring.survey.state = .idle ∧
    0 < (5 / 1000 : Rat) ∧ 30 ≤ 29 + 1 := by decide +kernel

theorem witness_CompletedMiJoinsRingAndGivesOneBlock :
    (meterSeg.mis + 1 ≤ 3) ∧ 4 ≤ { meterSeg with mis := 3 }.mis + 1 ∧ measuring.ring.length ≤ 30 ∧
    loudnessCode 0 = none ∧ loudnessCode (5 / 1000) = some (-237) ∧ -700 ≤ (-237 : Int) := by decide +kernel

theorem witness_IntegratedCodesLieInRange : ∀ b : Fin 150, (Vector.replicate 150 0)[b] ≤ 2 ^ 32 - 1 := by decide +kernel

/-- A histogram with blocks in bins 100 and 101. -/
def twoBins : Vector Nat 150 := (Vector.replicate 150 0).set 100 1 |>.set 101 1

/-- R58 to R61: the mean of the two weights gives −19.49 LUFS. -/
theorem integration_of_two_bins : gatedIntegration twoBins.toList = some (-195) := by decide +kernel

theorem witness_IntegratedCodesLieInRange_code (gate : ℝ) (centre : Fin 150 → ℝ) :
    (∃ c, gatedIntegration twoBins.toList = some c) ∧
    ∃ kept : Fin 150 → Nat, (∀ b, gate ≤ centre b → kept b = twoBins[b]) ∧ ∀ b, centre b < gate → kept b = 0 := by
  classical
  have h : totalCount twoBins.toList ≠ 0 := by decide +kernel
  refine ⟨by simp only [gatedIntegration, if_neg h]; exact ⟨_, rfl⟩, fun b => if gate ≤ centre b then twoBins[b] else 0, fun b h => if_pos h,
    fun b h => if_neg (not_le.mpr h)⟩

theorem witness_SurveysStartAndStop :
    16 ≤ (16 : Nat) ∧ 31 < 32 ∧ (MeterSvc.powerOn 0).survey.state = .idle ∧
    { Survey.powerOn with state := .active }.state = .active ∧
    { Survey.powerOn with state := .stopped }.state = .stopped := by decide

/-- A caption packet of stream 0. -/
def packet (kind row count : Nat) : CaptionPacket := ⟨0, kind, row, count, some 5, []⟩

theorem witness_CaptionStreamAndRowsFollowThePackets :
    checking.run ≠ .idle ∧ (packet 3 0 0).stream = checking.record.captionStream.val ∧
    ((packet 4 0 0).kind ≠ 1 ∧ (packet 4 0 0).kind ≠ 2 ∧ (packet 4 0 0).kind ≠ 3) ∧
    (16 ≤ (packet 2 16 0).row ∧ (packet 2 16 0).row ≠ 255) ∧ 42 < (packet 1 0 43).count ∧
    ((packet 1 255 0).kind = 1 ∧ (packet 1 255 0).row = 255) ∧ (packet 2 255 0).row = 255 ∧
    (packet 1 15 42).row = (15 : Fin 16).val ∧ (packet 1 15 42).count ≠ 0 := by decide +kernel

theorem witness_CaptionStreamAndRowsFollowThePackets_expiries :
    { checking with rows := checking.rows.set 3 (some ⟨some 0, 5⟩) }.rows[(3 : Fin 16)] = some ⟨some 0, 5⟩ ∧
    { checking with timer := 0 }.timer = 0 ∧ { checking with timer := 0 }.stream = .live ∧ checking.timer ≠ 0 := by
  decide +kernel

/-- A checker with a result and its presence record. -/
def combining : CheckerSvc := { checking with held := [⟨1, 100, true, true⟩], presence := [⟨100, false, false⟩] }

theorem witness_ResultsAreCombinedIntoSegments :
    combining.due = some (⟨1, 100, true, true⟩, ⟨100, false, false⟩, captionSeg) ∧ checking.due = none ∧
    (∃ g ∈ checking.segments, g.inst = 1) ∧ (∀ g ∈ checking.segments, g.inst ≠ 2) ∧
    Profile.default.maxGap = some 100 ∧ 100 ≤ { captionSeg with gapRun := 99 }.gapRun + 1 ∧
    { captionSeg with gapRun := 98 }.gapRun + 1 < 100 := by decide +kernel

theorem witness_ChecksAndVerdictOfARecord :
    (summary none).integrated = none ∧ (summary (some (-230))).integrated = some (-230) ∧
    Profile.default.shortTerm = none ∧ Profile.default.peak = some (-10) ∧ Profile.default.relative = none ∧
    { Profile.default with relative := some 0 }.relative ≠ none ∧ Profile.default.captions = false ∧
    { Profile.default with captions := true }.captions = true := by decide +kernel

theorem witness_RecordFieldsOfACompletion :
    closed.endMi = some 110 ∧ closed.cause = some .next ∧ closed.meterSummary = none ∧
    closed.captionSummary = some CaptionSummary.missing ∧ { closed with cause := some .reset }.cause = some .reset := by
  decide

/-- A write in progress. -/
def writing : State :=
  { timed with compliance := { Compliance.powerOn with writing := some (record 1), nextSeq := 2, waiting := [.clearReferences] } }

theorem witness_CompletionsAreWrittenInOrder :
    timed.compliance.writing = none ∧ writing.compliance.writing = some (record 1) ∧
    { Compliance.powerOn with waiting := [.completion 0 closed, .clearReferences] }.waiting
      = .completion 0 closed :: [.clearReferences] ∧
    Compliance.powerOn.lastWritten ≠ 2 ^ 48 - 1 ∧
    { Compliance.powerOn with log := [record (2 ^ 48 - 1)] }.lastWritten = 2 ^ 48 - 1 ∧
    (assembleRecord 1 0 { closed with meterSummary := some (summary (some 0)) } Profile.default none).verdict = .fail ∧
    (record 1).verdict ≠ .fail := by decide +kernel

theorem witness_WriteProfileStoresClampedFields : 8 ≤ (8 : Nat) ∧ (7 : Nat) = (7 : Fin 8).val ∧ max (-700) (min 0 (-700 : Int)) = -700 ∧
    readProfileArgs ⟨.dflt, .dflt, .dflt, .dflt, .dflt, .dflt, .dflt, .dflt, .dflt⟩ = some ⟨Profile.default, false⟩ ∧
    readProfileArgs ⟨.absent, .dflt, .dflt, .dflt, .dflt, .dflt, .dflt, .dflt, .dflt⟩ = none ∧ 2 ≤ (2 : Nat) := by decide

theorem witness_CollectMovesTheMark :
    logged.compliance.lastWritten < 2 ∧ logged.compliance.mark ≤ 1 ∧ 1 ≤ logged.compliance.lastWritten ∧
    0 < { logged.compliance with mark := 1 }.mark ∧ 0 ≤ { logged.compliance with mark := 1 }.lastWritten := by
  decide +kernel

theorem logged_is_good : logged.compliance.Good := by
  refine ⟨by decide +kernel, by decide +kernel, fun k h => ?_, fun _ => by decide +kernel, fun r h => (by cases h), by decide +kernel,
    by decide +kernel⟩
  obtain rfl : k = 0 := Nat.lt_one_iff.mp h
  rfl

theorem witness_ReadLogFindsHeldRecords :
    logged.compliance.Good ∧ 1 ≤ max 1 (logged.compliance.lastWritten - 4095) ∧ 1 ≤ logged.compliance.lastWritten ∧
    logged.compliance.lastWritten < 2 ∧
    4097 - 4095 = max 1 ({ Compliance.powerOn with log := [record 4097] }.lastWritten - 4095) :=
  ⟨logged_is_good, by decide +kernel, by decide +kernel, by decide +kernel, by decide +kernel⟩

theorem witness_StoreIsConfiguredAndItsBacklogTested :
    (∀ e ∈ State.reset.store.slots, ∃ t, e.2.state = .archived t) ∧ (∀ k : Fin 32, State.reset.holds[k] = none) ∧
    4096 ∣ 8192 ∧ 8192 ≤ 6144 + 2048 ∧ 6144 < 8192 + 2048 ∧ 1024 ≤ State.reset.store.slotCount ∧
    Store.powerOn.backlog = .normal ∧ { Store.powerOn with backlog := .high }.backlog = .high ∧
    (readReserveArgs 8192 ⟨.dflt, .dflt, .dflt, .dflt⟩).map (·.val) = some ⟨2048, 1024, 256, 4096⟩ ∧
    readReserveArgs 8192 ⟨.dflt, .dflt, .badMarker, .dflt⟩ = none :=
  ⟨fun e h => (by cases h), by decide +kernel, by decide, by decide, by decide, by decide +kernel, rfl, rfl,
    by decide +kernel, by decide +kernel⟩

theorem witness_SlotChoiceFollowsTheReserves :
    risingSlots Store.powerOn.slots = true ∧ (∀ e ∈ Store.powerOn.slots, e.1 < Store.powerOn.slotCount) ∧
    Store.powerOn.choose (ServiceRecord.powerOn 0) = .free 0 ∧
    { Store.powerOn with sealCount := 2 ^ 32 - 1 }.choose (ServiceRecord.powerOn 0) = .none ∧
    { Store.powerOn with slotCount := 1, reserve0 := 0, slots := [(0, slot (.archived 5) (some 1))] }.choose
      (ServiceRecord.powerOn 0) = .reuse 0 (slot (.archived 5) (some 1)) ∧
    { Store.powerOn with slotCount := 1, slots := [(0, slot .sealed (some 1))] }.choose
      { ServiceRecord.powerOn 0 with overwrite := true } = .overwrite 0 (slot .sealed (some 1)) := by decide +kernel

/-- A recorder that waits, of a service that records. -/
def waitingRecorder : State :=
  timed.setRecorder 0 { RecorderSvc.powerOn 0 with run := .waiting, enable := some true }

theorem witness_OnAirMessageOpensTheFirstSpan :
    State.reset.recorder[(0 : Svc)].run = .idle ∧ waitingRecorder.recorder[(0 : Svc)].run = .waiting ∧
    waitingRecorder.recorder[(0 : Svc)].enable = some true ∧ waitingRecorder.recorder[(0 : Svc)].held = [] ∧
    waitingRecorder.recorder[(0 : Svc)].state = none ∧ waitingRecorder.store.choose (ServiceRecord.powerOn 0) = .free 0 ∧
    (recording none).run = .active ∧ (RecorderSvc.powerOn 0).enable ≠ some true ∧ (RecorderSvc.powerOn 0).span = none ∧
    ((timed.setRecorder 0 (recording none)).work 0).passed = none := by decide +kernel

/-- A recorder in the span from 100, in slot 0. -/
def filling : State := fillingAfter 1

theorem witness_RecorderInputIsSortedAndStored :
    (recording (some 0)).span = some ⟨100, some 0, 0⟩ ∧ (filling.work 0).passed = none ∧ 99 < 100 ∧
    119 = 100 + (19 : Fin 20).val ∧ 100 + 20 ≤ 120 ∧ slotAt 0 filling.store.slots = some (slot .filling none) ∧
    (recording none).span = some ⟨100, none, 0⟩ ∧
    ((Work.sort ⟨{ recording none with lastTick := some 120 }, Store.powerOn, []⟩ ⟨119, .judgment .absent⟩).passed).isSome
      = true := by decide +kernel

theorem witness_SpansEndAtBoundariesAndTheNextOpen :
    slotAt 0 (filling.work 0).store.slots = some (slot .filling none) ∧ (slot .filling none).start = 100 ∧
    (filling.work 0).store.sealCount < 2 ^ 32 - 1 ∧ (filling.work 0).x.state = some .recording ∧
    2 ^ 32 - 1 ≤ ((fillingAfter (2 ^ 32 - 1)).work 0).store.sealCount ∧ (filling.work 0).x.runStart = some 100 ∧
    (filling.work 0).passed = none ∧ (filling.work 0).store.choose (ServiceRecord.powerOn 0) = .free 1 ∧
    ((filling.setRecorder 0
        { recording (some 0) with lastTick := some 120, span := some ⟨100, some 0, BitVec.allOnes 20⟩ }).work 0).passed
      = some ⟨100, some 0, BitVec.allOnes 20⟩ := by decide +kernel

/-- Entry 0 of the hold table live. -/
def withHold (fixed : Bool) : State := { timed with holds := timed.holds.set 0 (some ⟨0, 100, 120, .console, fixed⟩) }

theorem witness_HoldsAreCreatedReleasedAndFixed :
    (∀ k : Fin 32, { timed with holds := Vector.replicate 32 (some ⟨0, 0, 1, .console, false⟩) : State }.holds[k] ≠ none) ∧
    (withHold true).holds[(1 : Fin 32)] = none ∧ (withHold true).holds[(0 : Fin 32)] = some ⟨0, 100, 120, .console, true⟩ ∧
    (withHold false).holds[(0 : Fin 32)] = some ⟨0, 100, 120, .console, false⟩ ∧ 99 < 100 ∧ 16 ≤ (16 : Nat) := by decide +kernel

theorem witness_ClipIndexMessages :
    (⟨100, .stored 4⟩ : ClipEntry) ∈ (State.reset.clips.appendStored 0 4 100).lists[(0 : Svc)] ∧
    (⟨100, .stored 5⟩ : ClipEntry) ∉ (State.reset.clips.appendStored 0 4 100).lists[(0 : Svc)] := by decide +kernel

theorem reset_clips_are_good : State.reset.clips.Good := by
  have h : ∀ i : Svc, State.reset.clips.lists[i] = [] := by decide +kernel
  refine ⟨fun i => ?_, by decide +kernel, by decide +kernel, fun i m => ?_⟩
  · rw [h]; exact .nil
  · rw [h]; exact ⟨fun e => (by cases e), fun e => (by rcases e with e | e <;> cases e)⟩

/-- Slot 0 IN_TRANSFER under token 1. -/
def taken (remaining : Nat) : State :=
  { stored (slot .inTransfer (some 1)) with archive := ⟨[⟨0, 1, some 100, 600, remaining⟩], 1⟩ }

theorem witness_TakesAreHandedOutReadAndEnded :
    ((stored (slot .sealed (some 1))).store.slots = [(0, slot .sealed (some 1))]) ∧
    risingSlots (stored (slot .sealed (some 1))).store.slots = true ∧
    ((taken 600).archive.takes.find? fun t => decide (t.slot = 0)) = some ⟨0, 1, some 100, 600, 600⟩ ∧
    slotAt 0 (taken 600).store.slots = some (slot .inTransfer (some 1)) ∧
    slotAt 0 (stored (slot (.archived 1) (some 1))).store.slots = some (slot (.archived 1) (some 1)) ∧
    (∀ t ∈ (taken 600).archive.takes, ¬ (t.slot = 0 ∧ t.token = 2)) ∧ 4096 ≤ 4096 ∧ 1 ≤ 4096 ∧
    ((List.replicate 8 (0, slot .inTransfer (some 1))).filter fun e => decide (e.2.state = .inTransfer)).length = 8 ∧
    (∀ e ∈ timed.store.slots, e.2.state ≠ .sealed) ∧ (Arg.dflt = (.dflt : Arg Nat) ∧ 1200 = (1200 : Nat)) := by
  decide +kernel

theorem witness_TakeTimersCountPeriodEdges :
    risingSlots (taken 1).store.slots = true ∧ (taken 1).archive.takes.length ≤ 8 ∧
    ((taken 1).archive.takes.map (·.slot)).Nodup ∧ (∀ t ∈ (taken 1).archive.takes, t.slot = 0 ∧ t.remaining ≤ 1) ∧
    (∀ t ∈ (taken 0).archive.takes, t.remaining = 0) ∧ (∀ t ∈ (taken 2).archive.takes, 1 < t.remaining) ∧
    ((taken 1).store.backlog = .normal ∧ 0 + 1 < (taken 1).store.threshold) ∧
    ({ (taken 1).store with threshold := 1 }.backlog = .normal ∧ 0 + 1 = { (taken 1).store with threshold := 1 }.threshold) ∧
    256 - 256 < 1 := by
  decide +kernel

/-- Port 0 in LINK_UP with bytes in reception. -/
def receiving (l : List Byte) (q : List Request) : State :=
  timed.setPort 0 { Port.powerOn .playout .playout with link := .up, rx := some l, queue := q }

/-- The frame of SET TIME 100 under tag 11 hex. -/
def setTimeFrame : List Byte := withCrc [0x11, 0x04, 0, 5, 0, 0, 0, 0, 100]

theorem witness_PortsReceiveFramesAndLoseLinks :
    State.reset.ports[(0 : PortNo)].link = .down ∧ (receiving [] []).ports[(0 : PortNo)].rx = some [] ∧
    parseFrame [] = none ∧ parseFrame setTimeFrame = some ⟨0x11, 0x04, [0, 0, 0, 0, 100]⟩ ∧
    (List.replicate 4101 (0 : Byte)).length < 4102 ∧ 4102 ≤ (List.replicate 4102 (0 : Byte)).length ∧
    (receiving [] [⟨0x11, 0x04, [0, 0, 0, 0, 100]⟩]).ports[(0 : PortNo)].serving = none ∧
    serving.ports[(0 : PortNo)].serving.isSome = true := by decide +kernel

theorem witness_PortsReceiveFramesAndLoseLinks_unserved (t : Straps) :
    checkRequest .playout rq t ⟨0x11, 0x04, [0, 0, 0, 0, 100]⟩ = .ok (.setTime rq 100) ∧
    checkRequest .console rq t ⟨0x11, 0x04, [0, 0, 0, 0, 100]⟩ = .error .notPermitted := ⟨rfl, rfl⟩

theorem witness_RequestsEnterServiceAfterChecks (t : Straps) :
    (catalogueRow 0x99 = none) ∧ (catalogueRow 0x04).map (·.permits .playout) = some true ∧
    (catalogueRow 0x04).map (·.permits .console) = some false ∧ payloadBytes 0x04 [0, 0, 0, 0, 100] = 5 ∧
    commandOf rq t 0x04 [0, 0, 0, 0, 100] = some (.setTime rq 100) ∧
    (receiving [] [⟨0x11, 0x04, [0, 0, 0, 0, 100]⟩]).ports[(0 : PortNo)].serving = none ∧
    serving.ports[(0 : PortNo)].serving.isSome = true :=
  ⟨by decide, by decide, by decide, by decide, rfl, by decide +kernel, by decide +kernel⟩

theorem witness_LayoutsHaveTheirLengths :
    (record 1).seq < 2 ^ 48 ∧ (∀ o : Fin 20, chunk.audio[o].length ≤ 4800) ∧ chunk.frames.length ≤ 50 ∧
    chunk.packets.length ≤ 512 ∧ chunk.segments.length ≤ 8 ∧
    ([⟨19, 24, List.replicate 12288 1⟩] : List StoredFrame)[0]? = some ⟨19, 24, List.replicate 12288 1⟩ ∧
    (∀ f ∈ ([⟨19, 24, List.replicate 12288 1⟩] : List StoredFrame), f.bytes.length = 12288) ∧
    ([⟨19, ⟨0, 1, 15, 42, none, []⟩⟩] : List StoredPacket)[0]? = some ⟨19, ⟨0, 1, 15, 42, none, []⟩⟩ := by
  refine ⟨by decide +kernel, by decide +kernel, by decide +kernel, by decide +kernel, by decide +kernel, rfl, ?_, rfl⟩
  intro f h
  rw [List.mem_singleton.mp h, List.length_replicate]

/-- A route of every kind and every service to port 0. -/
def anyRoute : Route := ⟨true, none, 0, 0xF, 0⟩

theorem witness_NoticesReachTheirRoutesAndPorts :
    anyRoute.matches ⟨.violation, some 3, none, .nothing⟩ = true ∧ Route.powerOn.matches ⟨.violation, some 3, none, .nothing⟩ = false ∧
    { PortNotices.powerOn with mode := .pulse, owed := 64 }.owed = 64 ∧ PortNotices.powerOn.mode = .level ∧
    readRoute ⟨1, 18, 15, 15, 2⟩ = some ⟨true, some .counterFull, 15, 15, 2⟩ ∧ readRoute ⟨1, 19, 15, 15, 2⟩ = none := by
  decide +kernel

theorem witness_CountersCountAndAreCleared :
    (2 ^ 32 - 1 ≤ { CounterCell.zero with value := 2 ^ 32 - 1 }.value) ∧ CounterCell.zero.value < 2 ^ 32 - 1 ∧
    selection 16 = some .part ∧ selection 15 = some (.service 15) ∧ selection 17 = none := by decide

/-- A READ STATUS of service 0 between its two shares. -/
def half (n : Nat) (x : StatusShare) : State := { timed with shares := [⟨rq, n, x⟩] }

theorem witness_ReadsOfServicesChangeNothing_shares :
    (∀ h ∈ timed.shares, ¬ (h.rq = rq ∧ h.selector = 1)) ∧ (1 : Nat) = (0 : Svc).val + 1 ∧ (16 : Nat) = (15 : Svc).val + 1 ∧
    (half 1 (.service 0 .ready false)).shares.find? (fun h => decide (h.rq = rq ∧ h.selector = 1))
      = some ⟨rq, 1, .service 0 .ready false⟩ ∧
    (half 18 (.recorder timed.recorderView)).shares.find? (fun h => decide (h.rq = rq ∧ h.selector = 18))
      = some ⟨rq, 18, .recorder timed.recorderView⟩ := by
  refine ⟨fun h hh => (by cases hh), rfl, rfl, by decide +kernel, by decide +kernel⟩

theorem witness_ReadsOfServicesChangeNothing_and_ReadsOfTheStoreChangeNothing :
    (16 : Nat) = (15 : Svc).val + 1 ∧ slotAt 0 (stored (slot .sealed (some 1))).store.slots = some (slot .sealed (some 1)) ∧
    (slot .sealed (some 1)).state ≠ .filling ∧ (slot .sealed (some 1)).start = 100 ∧
    (∀ e ∈ State.reset.clips.lists[(0 : Svc)], e.start ≠ 20 * (119 / 20)) ∧
    (⟨100, .gap⟩ : ClipEntry) ∈ (State.reset.clips.appendGap 0 100).lists[(0 : Svc)] ∧ 100 = 20 * (119 / 20) ∧
    (⟨100, .stored 4⟩ : ClipEntry) ∈ (State.reset.clips.appendStored 0 4 100).lists[(0 : Svc)] ∧
    slotAt 4 State.reset.store.slots = none ∧ 20 ≤ (20 : Nat) := by
  decide +kernel

theorem witness_WarmResetClearsRunsAndKeepsSettings :
    logged.compliance.Good ∧ logged.compliance.writing = none ∧ logged.GoodStore := by
  have hs : ∀ i : Svc, logged.recorder[i].span = none := by decide +kernel
  refine ⟨logged_is_good, rfl, ⟨by decide +kernel, fun e h => (by cases h)⟩,
    ⟨fun e h => (by cases h), fun e h => (by cases h), .nil, by decide +kernel⟩,
    ⟨fun i _ => hs i, fun i p n h => (by rw [hs i] at h; cases h), fun n x h => (by cases h)⟩,
    ⟨by decide +kernel, by decide +kernel, fun t h => (by cases h), fun n x h => (by cases h)⟩⟩


/-! ### Good states

One state that is good in each block, for the statements about every step. -/

/-- Services that run, with a segment that waits for a summary. -/
def busySched : ServiceSched := { running with closing := [closed], staging := [desc 1 110, desc 2 120] }

theorem witness_EveryStepKeepsTheSchedule :
    (∀ i : Svc, (scheduled busySched).sched[i].GoodStaging) ∧ (∀ i : Svc, (scheduled busySched).sched[i].GoodState) ∧
    ∀ i : Svc, (scheduled busySched).sched[i].GoodClosing := by
  have h : ∀ i : Svc, (scheduled busySched).sched[i].closing = [] ∨ (scheduled busySched).sched[i].closing = [closed] := by
    decide +kernel
  refine ⟨by unfold ServiceSched.GoodStaging; decide +kernel, by unfold ServiceSched.GoodState; decide +kernel,
    fun i => ⟨fun g hg => ?_, fun g hg => ?_⟩⟩
  · rcases h i with e | e <;> rw [e] at hg <;> cases hg
    · decide
    · contradiction
  · rcases h i with e | e <;> rw [e] at hg <;> cases hg
    decide

theorem good_station : locked.station.Good := ⟨fun m h => (by cases h; decide), by decide⟩

theorem good_records : State.reset.GoodRecords := by
  unfold State.GoodRecords ServiceRecord.Good
  decide +kernel

theorem good_profiles : ∀ k : Fin 8, State.reset.compliance.profiles[k].Good := by
  have h : ∀ k : Fin 8, State.reset.compliance.profiles[k] = Profile.default := by decide +kernel
  intro k
  rw [h]
  exact ⟨by decide, by decide, by decide, fun c e => (by cases e), fun c e => (by cases e; decide), fun c e => (by cases e),
    by decide, fun c e => (by cases e; decide), by decide⟩

theorem good_meter : ∀ i : Svc, (timed.setMeter 0 measuring).meter[i].Good := by
  have hs : ∀ i : Svc, (timed.setMeter 0 measuring).meter[i].segments = [] ∨ (timed.setMeter 0 measuring).meter[i].segments = [meterSeg] := by
    decide +kernel
  have hr : ∀ i : Svc, (timed.setMeter 0 measuring).meter[i].ring.length ≤ 30 := by decide +kernel
  have hv : ∀ i : Svc, (timed.setMeter 0 measuring).meter[i].survey = Survey.powerOn := by decide +kernel
  have hp : Survey.powerOn.Good := by unfold Survey.Good; decide +kernel
  refine fun i => ⟨hr i, fun g hg => ?_, hv i ▸ hp⟩
  rcases hs i with e | e <;> rw [e] at hg <;> cases hg
  · unfold MeterSegment.Balanced; decide +kernel
  · contradiction

theorem good_checker : ∀ i : Svc, (timed.setChecker 0 checking).checker[i].Good := by
  have hs : ∀ i : Svc, (timed.setChecker 0 checking).checker[i].segments = [] ∨
      (timed.setChecker 0 checking).checker[i].segments = [captionSeg] := by decide +kernel
  have hr : ∀ i : Svc, ∀ r : Fin 16, (timed.setChecker 0 checking).checker[i].rows[r] = none := by decide +kernel
  have ht : ∀ i : Svc, (timed.setChecker 0 checking).checker[i].timer ≤ (timed.setChecker 0 checking).checker[i].record.streamTimeout ∧
      ((timed.setChecker 0 checking).checker[i].run ≠ .idle → 0 < (timed.setChecker 0 checking).checker[i].timer) := by decide +kernel
  refine fun i => ⟨(ht i).1, fun h _ => (ht i).2 h, fun r t h => ?_, fun g hg => ?_⟩
  · rw [hr i r] at h; cases h
  · rcases hs i with e | e <;> rw [e] at hg <;> cases hg
    · unfold CaptionSegment.Balanced; decide +kernel
    · contradiction

theorem good_store : (taken 600).store.GoodSettings ∧ (taken 600).GoodStore ∧ (taken 600).GoodHoldCounts := by
  have hs : ∀ i : Svc, (taken 600).recorder[i].span = none := by decide +kernel
  have hx : ∀ n x, slotAt n (taken 600).store.slots = some x → n = 0 ∧ x = slot .inTransfer (some 1) := by
    intro n x h
    by_cases e : 0 = n
    · exact ⟨e.symm, by subst e; cases h; rfl⟩
    · simp [taken, stored, slotAt, e] at h
  refine ⟨by unfold Store.GoodSettings; decide +kernel,
    ⟨by unfold Store.GoodTable; decide +kernel,
      ⟨by decide +kernel, fun e he k hk => ?_, List.pairwise_singleton _ _, by decide +kernel⟩,
      ⟨fun i _ => hs i, fun i p n h => (by rw [hs i] at h; cases h), fun n x h hf => ?_⟩,
      ⟨by decide +kernel, by decide +kernel, fun t ht => ?_, fun n x h _ => ?_⟩⟩,
    by unfold State.GoodHoldCounts; decide +kernel⟩
  · cases he
    · cases hk; decide +kernel
    · contradiction
  · obtain ⟨-, rfl⟩ := hx n x h; cases hf
  · cases ht
    · exact ⟨slot .inTransfer (some 1), rfl, rfl⟩
    · contradiction
  · obtain ⟨rfl, -⟩ := hx n x h; exact ⟨_, List.mem_singleton.mpr rfl, rfl⟩

theorem good_ports_router_and_bank :
    State.reset.GoodRoles ∧ (∀ p : PortNo, State.reset.ports[p].Good) ∧ (∀ p : PortNo, State.reset.router.ports[p].Good) ∧
    State.reset.bank.Good := by
  have hr : ∀ p : PortNo, State.reset.ports[p].rx = none := by decide +kernel
  have hc : CounterCell.zero.Good := by unfold CounterCell.Good; decide
  have hs : ∀ (i : Svc) (k : Fin 12), State.reset.bank.services[i][k] = CounterCell.zero := by decide +kernel
  have hp : ∀ k : Fin 5, State.reset.bank.part[k] = CounterCell.zero := by decide +kernel
  refine ⟨by unfold State.GoodRoles; decide +kernel,
    fun p => ⟨?_, ?_, ?_, fun l h => (by rw [hr p] at h; cases h)⟩,
    by unfold PortNotices.Good; decide +kernel, fun i k => hs i k ▸ hc, fun k => hp k ▸ hc⟩
  · revert p; decide +kernel
  · revert p; decide +kernel
  · revert p; decide +kernel

theorem witness_EveryStepKeepsMeterAndCheckerBalanced :
    State.reset.GoodRecords ∧ (∀ i : Svc, (timed.setMeter 0 measuring).meter[i].Good) ∧
    ∀ i : Svc, (timed.setChecker 0 checking).checker[i].Good := ⟨good_records, good_meter, good_checker⟩

theorem witness_EveryStepKeepsLogAndSettings :
    logged.compliance.Good ∧ (∀ k : Fin 8, State.reset.compliance.profiles[k].Good) ∧ (taken 600).store.GoodSettings :=
  ⟨logged_is_good, good_profiles, good_store.1⟩

theorem witness_EveryStepKeepsStoreHoldsAndClips :
    (taken 600).GoodStore ∧ (taken 600).GoodHoldCounts ∧ State.reset.clips.Good :=
  ⟨good_store.2.1, good_store.2.2, reset_clips_are_good⟩

theorem witness_EveryStepKeepsPortsRouterAndBank :
    locked.station.Good ∧ State.reset.GoodRoles ∧ (∀ p : PortNo, State.reset.ports[p].Good) ∧
    (∀ p : PortNo, State.reset.router.ports[p].Good) ∧ State.reset.bank.Good :=
  ⟨good_station, good_ports_router_and_bank⟩

end Sys2Proof.Tests
end

section
/-!
The station time unit (1.1): what a period edge and SET TIME come to, each said once, and the statement about SET TIME (R2).
-/

namespace Sys2Proof.Machine

/-! ### Services that act (R16) -/

theorem State.acting_iff (s : State) (i : Svc) :
    s.acting i = true ↔ s.sched[i].state = .starting ∨ s.sched[i].state = .running := by
  simp [State.acting]

theorem State.any_acting_iff (s : State) :
    allSvcs.any s.acting = true ↔ ∃ i : Svc, s.sched[i].state = .starting ∨ s.sched[i].state = .running := by
  simp [List.any_eq_true, State.acting_iff]

/-! ### Period edges (R1, R3, R4) -/

@[simp] theorem Station.edge_time (x : Station) (kind : EdgeKind) (instant : Nat) (ref : RefState) :
    (x.edge kind instant ref).time = x.nextTime := rfl

theorem Station.nextTime_of_time {x : Station} {m : Mi} (h : x.time = some m) :
    x.nextTime = some ((m + 1) % 2 ^ 40) := by
  unfold Station.nextTime
  rw [h]
  rfl

/-- The command `c` brings a period edge when the reference state is `ref`: an edge on the reference input in either state,
the expiry of the watch in LOCKED, the oscillator in FREE_RUN (R3, R4). -/
def BringsPeriodEdge (c : Instr) (ref : RefState) : Prop :=
  (∃ elapsed, c = .referenceEdge elapsed) ∨ (c = .referenceWatchExpiry ∧ ref = .locked) ∨
    (c = .oscillatorEdge ∧ ref = .freeRun)

theorem exec_referenceEdge_station (elapsed : Nat) (s : State) :
    ∃ u, exec (.referenceEdge elapsed) s = .next u ∧
      u.station = s.station.edge .reference (s.station.instant + elapsed) .locked := by
  refine ⟨_, rfl, ?_⟩
  cases s.station.ref <;> rfl

theorem exec_referenceWatchExpiry_station {s : State} (h : s.station.ref = .locked) :
    ∃ u, exec .referenceWatchExpiry s = .next u ∧
      u.station = s.station.edge .oscillator (s.station.instant + watchMicros) .freeRun := by
  refine ⟨_, rfl, ?_⟩
  rw [h]
  rfl

theorem exec_oscillatorEdge_station {s : State} (h : s.station.ref = .freeRun) :
    ∃ u, exec .oscillatorEdge s = .next u ∧
      u.station = s.station.edge .oscillator (s.station.instant + oscillatorMicros) .freeRun := by
  refine ⟨_, rfl, ?_⟩
  rw [h]
  rfl

/-- R1: whichever command brings it, a period edge leaves the station time that the unit counts to. -/
theorem exec_periodEdge_time {c : Instr} {s u : State} (hc : BringsPeriodEdge c s.station.ref)
    (hu : exec c s = .next u) : u.station.time = s.station.nextTime := by
  have edge : ∃ v kind instant ref, exec c s = .next v ∧ v.station = s.station.edge kind instant ref := by
    rcases hc with ⟨elapsed, rfl⟩ | ⟨rfl, locked⟩ | ⟨rfl, freeRun⟩
    · obtain ⟨v, hv, station⟩ := exec_referenceEdge_station elapsed s
      exact ⟨v, _, _, _, hv, station⟩
    · obtain ⟨v, hv, station⟩ := exec_referenceWatchExpiry_station locked
      exact ⟨v, _, _, _, hv, station⟩
    · obtain ⟨v, hv, station⟩ := exec_oscillatorEdge_station freeRun
      exact ⟨v, _, _, _, hv, station⟩
  obtain ⟨v, kind, instant, ref, hv, station⟩ := edge
  cases hv.symm.trans hu
  rw [station, Station.edge_time]

/-! ### SET TIME (R2) -/

theorem exec_setTime_of_acting (rq : Req) (m : Mi) {s : State}
    (h : ∃ i : Svc, s.sched[i].state = .starting ∨ s.sched[i].state = .running) :
    exec (.setTime rq m) s = .next ((s.arrive (.setTime rq m)).respond rq .state .nothing) :=
  congrArg Host.Outcome.next (if_pos ((s.arrive (.setTime rq m)).any_acting_iff.mpr h))

theorem exec_setTime_of_none_acting (rq : Req) {m : Mi} (hm : m < 2 ^ 40) {s : State}
    (h : ∀ i : Svc, s.sched[i].state ≠ .starting ∧ s.sched[i].state ≠ .running) :
    exec (.setTime rq m) s =
      .next ({ s.arrive (.setTime rq m) with station := { s.station with time := some m } }.respond rq .ok .nothing) := by
  have idle : ¬ allSvcs.any (s.arrive (.setTime rq m)).acting = true := by
    rw [State.any_acting_iff]
    rintro ⟨i, starting | running⟩
    · exact (h i).1 starting
    · exact (h i).2 running
  have whole : m % miModulus = m := Nat.mod_eq_of_lt hm
  refine congrArg Host.Outcome.next ((if_neg idle).trans ?_)
  rw [whole, State.arrive_station]

/-- Settles O5: SET TIME touches no other field of the station, so the edges that can follow are those of the reference state it
was taken in, and each of them counts on from the number loaded. -/
theorem setTimeLoadsStationTime : Obligations.SetTimeLoadsStationTime := by
  unfold Obligations.SetTimeLoadsStationTime
  intro s rq m hm u
  refine ⟨fun idle => ?_, exec_setTime_of_acting rq m⟩
  have taken := exec_setTime_of_none_acting rq hm idle
  refine ⟨taken, fun t v c ht hc hv => ?_⟩
  have loaded : t.station = { s.station with time := some m } := by
    cases taken.symm.trans ht
    rw [State.respond_station]
  have sameRef : BringsPeriodEdge c t.station.ref := by
    rw [loaded]
    exact hc
  rw [exec_periodEdge_time sameRef hv]
  exact Station.nextTime_of_time (by rw [loaded])

end Sys2Proof.Machine
end

section
/-!
Staging and groups (2.3): what WITHDRAW (R23), CONFIGURE GROUP (R25) and READ SCHEDULE come to, and what the two resets do to the
memberships, each said once; the statements about R23 and R25.
-/

namespace Sys2Proof.Machine

theorem State.setSched_self (s : State) (i : Svc) : s.setSched i s.sched[i] = s := by
  unfold State.setSched
  rw [Fin.getElem_fin, Vector.set_getElem_self]

/-! ### WITHDRAW in one service (R23) -/

theorem ServiceSched.withdraw_of_staged {x : ServiceSched} {id : Nat} (h : ∃ d ∈ x.staging, d.id = id) :
    x.withdraw id = ({ x with staging := x.staging.filter fun d => decide (d.id ≠ id) }, .ok) := by
  have staged : x.staging.any (·.id == id) = true := by simpa using h
  have others : x.staging.filter (·.id != id) = x.staging.filter fun d => decide (d.id ≠ id) :=
    List.filter_congr fun d _ => Bool.eq_iff_iff.mpr (by rw [bne_iff_ne, decide_eq_true_eq])
  rw [ServiceSched.withdraw, if_pos staged, others]

theorem ServiceSched.withdraw_of_not_staged {x : ServiceSched} {id : Nat} (h : ∀ d ∈ x.staging, d.id ≠ id) :
    x.withdraw id = (x, if x.openId = some id then .tooLate else .notFound) := by
  have absent : ¬ x.staging.any (·.id == id) = true := by simpa using h
  rw [ServiceSched.withdraw, if_neg absent, apply_ite (Prod.mk x)]

/-! ### WITHDRAW (R23) -/

theorem exec_withdraw_of_no_service (rq : Req) {n : Nat} (id : Nat) (s : State) (h : 16 ≤ n) :
    exec (.withdraw rq n id) s = .next ((s.arrive (.withdraw rq n id)).respond rq .badArgument .nothing) := by
  change execWithdraw rq n id s = _
  unfold execWithdraw
  rw [asFin_eq_none.mpr h]
  rfl

theorem exec_withdraw_of_disabled (rq : Req) (i : Svc) (id : Nat) {s : State} (h : s.sched[i].state = .disabled) :
    exec (.withdraw rq i.val id) s = .next ((s.arrive (.withdraw rq i.val id)).respond rq .state .nothing) := by
  change execWithdraw rq i.val id s = _
  unfold execWithdraw
  rw [asFin_val]
  exact congrArg Host.Outcome.next (if_pos h)

theorem exec_withdraw_of_enabled (rq : Req) (i : Svc) (id : Nat) {s : State} (h : s.sched[i].state ≠ .disabled) :
    exec (.withdraw rq i.val id) s =
      .next (((s.arrive (.withdraw rq i.val id)).setSched i (s.sched[i].withdraw id).1).respond rq
        (s.sched[i].withdraw id).2 .nothing) := by
  change execWithdraw rq i.val id s = _
  unfold execWithdraw
  rw [asFin_val]
  exact congrArg Host.Outcome.next (if_neg h)

/-- R23: an id that is not in the staging queue leaves the service as it is, and the status tells whether the open segment
carries it. -/
theorem exec_withdraw_of_not_staged (rq : Req) (i : Svc) {id : Nat} {s : State} (enabled : s.sched[i].state ≠ .disabled)
    (h : ∀ d ∈ s.sched[i].staging, d.id ≠ id) :
    exec (.withdraw rq i.val id) s =
      .next ((s.arrive (.withdraw rq i.val id)).respond rq
        (if s.sched[i].openId = some id then .tooLate else .notFound) .nothing) := by
  have same : (s.arrive (.withdraw rq i.val id)).setSched i s.sched[i] = s.arrive (.withdraw rq i.val id) :=
    State.setSched_self _ i
  rw [exec_withdraw_of_enabled rq i id enabled, ServiceSched.withdraw_of_not_staged h, same]

/-- Settles O11: the id is looked for in the staging queue first, then at the open segment. -/
theorem withdrawFindsTheDescriptor : Obligations.WithdrawFindsTheDescriptor := by
  unfold Obligations.WithdrawFindsTheDescriptor
  intro s rq n id c u
  refine ⟨exec_withdraw_of_no_service rq id s, ?_⟩
  rintro i rfl x
  refine ⟨exec_withdraw_of_disabled rq i id, fun enabled staged => ?_, fun enabled absent isOpen => ?_,
    fun enabled absent notOpen => ?_⟩
  · rw [exec_withdraw_of_enabled rq i id enabled, ServiceSched.withdraw_of_staged staged]
    rfl
  · rw [exec_withdraw_of_not_staged rq i enabled absent, if_pos isOpen]
  · rw [exec_withdraw_of_not_staged rq i enabled absent, if_neg notOpen]

/-! ### CONFIGURE GROUP and READ SCHEDULE (R25, R35) -/

theorem exec_configureGroup_of_fits (rq : Req) (g : Fin 4) {members : Nat} (s : State) (h : members < 2 ^ 16) :
    exec (.configureGroup rq g.val members) s =
      .next ({ s.arrive (.configureGroup rq g.val members) with
        groups := s.groups.set g (BitVec.ofNat 16 members) }.respond rq .ok .nothing) := by
  change execConfigureGroup rq g.val members s = _
  unfold execConfigureGroup
  rw [asFin_val]
  exact congrArg Host.Outcome.next (if_pos h)

theorem exec_configureGroup_of_bad (rq : Req) {n members : Nat} (s : State) (h : 4 ≤ n ∨ 2 ^ 16 ≤ members) :
    exec (.configureGroup rq n members) s =
      .next ((s.arrive (.configureGroup rq n members)).respond rq .badArgument .nothing) := by
  change execConfigureGroup rq n members s = _
  unfold execConfigureGroup
  cases group : asFin 4 n with
  | none => rfl
  | some g =>
    have isGroup : ¬ 4 ≤ n := fun above => nomatch group.symm.trans (asFin_eq_none.mpr above)
    exact congrArg Host.Outcome.next (if_neg (Nat.not_lt.mpr (h.resolve_left isGroup)))

theorem exec_readSchedule_val (rq : Req) (i : Svc) (s : State) :
    exec (.readSchedule rq i.val) s =
      .next ((s.arrive (.readSchedule rq i.val)).respond rq .ok
        (.schedule (s.sched[i].scheduleView s.now s.groups))) := by
  change execReadSchedule rq i.val s = _
  unfold execReadSchedule
  rw [asFin_val]
  rfl

/-! ### What keeps the groups through a warm reset (R25) -/

/-- A field that every round of a fold keeps is kept by the fold. -/
theorem State.foldl_keeps {α β : Type} (field : State → β) {f : State → α → State}
    (h : ∀ s a, field (f s a) = field s) (l : List α) (s : State) : field (l.foldl f s) = field s := by
  induction l generalizing s with
  | nil => rfl
  | cons a l ih => rw [List.foldl_cons, ih, h]

theorem State.serve_groups (s : State) (p : PortNo) : (s.serve p).groups = s.groups := by
  unfold State.serve
  dsimp only
  cases s.ports[p].unserved with
  | none => rfl
  | some q =>
    dsimp only
    cases s.checked p (s.ports[p].passes + 1) q with
    | ok c => rfl
    | error st => dsimp only; split <;> rfl

@[simp] theorem State.passServed_groups (s : State) : s.passServed.groups = s.groups :=
  State.foldl_keeps State.groups State.serve_groups allPorts s

@[simp] theorem State.warmRouter_groups (s : State) : s.warmRouter.groups = s.groups := rfl

@[simp] theorem State.dropRunStarted_groups (s : State) : s.dropRunStarted.groups = s.groups := rfl

@[simp] theorem State.warmSchedule_groups (s : State) : s.warmSchedule.groups = s.groups := by
  unfold State.warmSchedule
  rw [State.complete_groups, State.complete_groups]

@[simp] theorem State.warmMeasures_groups (s : State) : s.warmMeasures.groups = s.groups := by
  dsimp only [State.warmMeasures]

@[simp] theorem State.warmRecorder_groups (s : State) : s.warmRecorder.groups = s.groups := by
  unfold State.warmRecorder
  rw [State.testBacklog_groups]
  dsimp only
  exact State.foldl_keeps State.groups (fun _ _ => State.worked_groups _ _ _) allSvcs s

@[simp] theorem State.warmBank_groups (s : State) : s.warmBank.groups = s.groups :=
  State.foldl_keeps State.groups State.bankAdd_groups _ _

@[simp] theorem State.warmPorts_groups (s : State) (t : Straps) : (s.warmPorts t).groups = s.groups := rfl

/-! ### The groups at the resets (R25) -/

theorem exec_powerOnReset_groups {straps : Straps} {s t : State} (h : exec (.powerOnReset straps) s = .next t) (g : Fin 4) :
    t.groups[g] = 0 := by
  cases h
  exact Vector.getElem_replicate g.isLt

theorem exec_warmReset_groups {rq : Req} {straps : Straps} {s t : State} (h : exec (.warmReset rq straps) s = .next t) :
    t.groups = s.groups := by
  change execWarmReset rq straps s = .next t at h
  rw [← Host.Outcome.next.inj h]
  simp only [State.respond_groups, State.warmPorts_groups, State.warmBank_groups, State.warmRecorder_groups,
    State.warmMeasures_groups, State.warmSchedule_groups, State.dropRunStarted_groups, State.warmRouter_groups,
    State.passServed_groups]

/-- Settles O12: CONFIGURE GROUP by whether its number names a group and its set a set of services; the resets block by block. -/
theorem configureGroupReplacesMembership : Obligations.ConfigureGroupReplacesMembership := by
  unfold Obligations.ConfigureGroupReplacesMembership
  refine ⟨fun s rq n members => ⟨?_, exec_configureGroup_of_bad rq s⟩, fun _ _ _ => exec_powerOnReset_groups,
    fun _ _ _ _ => exec_warmReset_groups, fun s rq i => ⟨s.sched[i].scheduleView s.now s.groups, rfl, exec_readSchedule_val rq i s⟩⟩
  rintro g rfl
  exact exec_configureGroup_of_fits rq g s

end Sys2Proof.Machine
end

section
/-!
The collection mark (6.6.2): what COLLECT comes to, said once, and the statement about COLLECT (R115).
-/

namespace Sys2Proof.Machine

/-! ### The sequence that COLLECT carries (R115) -/

theorem Compliance.collectTo_of_lastWritten_lt {x : Compliance} {n : Nat} (h : x.lastWritten < n) :
    x.collectTo n = (x, .badArgument) :=
  if_pos h

theorem Compliance.collectTo_of_lt_mark {x : Compliance} {n : Nat} (below : n < x.mark) (written : n ≤ x.lastWritten) :
    x.collectTo n = (x, .ok) :=
  (if_neg (Nat.not_lt.mpr written)).trans (if_pos below)

theorem Compliance.collectTo_of_mark_le {x : Compliance} {n : Nat} (above : x.mark ≤ n) (written : n ≤ x.lastWritten) :
    x.collectTo n = ({ x with mark := n }, .ok) :=
  (if_neg (Nat.not_lt.mpr written)).trans (if_neg (Nat.not_lt.mpr above))

/-! ### COLLECT -/

/-- R115: the mark that the response carries is read after the request has had its effect. -/
theorem exec_collect_of_collectTo (rq : Req) {s : State} {n : Nat} {y : Compliance} {st : Status}
    (h : s.compliance.collectTo n = (y, st)) :
    exec (.collect rq n) s =
      .next ({ s.arrive (.collect rq n) with compliance := y }.respond rq st (.mark y.mark)) := by
  change execCollect rq n s = _
  unfold execCollect
  dsimp only
  rw [State.arrive_compliance, h]

/-- A COLLECT that moves no mark leaves the unit as it was. -/
theorem exec_collect_of_mark_kept (rq : Req) {s : State} {n : Nat} {st : Status}
    (h : s.compliance.collectTo n = (s.compliance, st)) :
    exec (.collect rq n) s = .next ((s.arrive (.collect rq n)).respond rq st (.mark s.compliance.mark)) :=
  exec_collect_of_collectTo rq h

/-- Settles O36: a sequence not yet written is refused, one below the mark is taken without effect, and any other becomes the mark. -/
theorem collectMovesTheMark : Obligations.CollectMovesTheMark := by
  unfold Obligations.CollectMovesTheMark
  intro s rq n c u x
  refine ⟨fun unwritten => ?_, fun below written => ?_, fun above written => ?_⟩
  · exact exec_collect_of_mark_kept rq (Compliance.collectTo_of_lastWritten_lt unwritten)
  · exact exec_collect_of_mark_kept rq (Compliance.collectTo_of_lt_mark below written)
  · exact exec_collect_of_collectTo rq (Compliance.collectTo_of_mark_le above written)

end Sys2Proof.Machine
end

section
/-!
The CRC as it runs over the bits of a frame, and the statement about it (R172). Two facts carry it: what is xored into the register
before it shifts enters it bit by bit, and a register that its own top bits enter only shifts.
-/

namespace Sys2Proof.Machine

/-! ### Bits entering the register (R172) -/

/-- R172: the register after one bit has entered it. -/
def crcBit (r : BitVec 16) (d : Bool) : BitVec 16 := (r <<< 1) ^^^ (if r.msb = d then 0 else 0x1021#16)

/-- R172: the bits of a byte in the order in which they enter, most significant first. -/
def byteBits (b : Byte) : List Bool := [7, 6, 5, 4, 3, 2, 1, 0].map b.getLsbD

/-- The first `n` bits of a register, most significant first. -/
def topBits : Nat → BitVec 16 → List Bool
  | 0, _ => []
  | n + 1, r => r.msb :: topBits n (r <<< 1)

theorem crcBit_msb (r : BitVec 16) : crcBit r r.msb = r <<< 1 := by
  simp [crcBit]

theorem crcShift_eq (r : BitVec 16) : crcShift r = (r <<< 1) ^^^ (if r.msb then 0x1021#16 else 0) := by
  unfold crcShift
  split <;> simp

/-- What is xored into the register before a bit step enters with its first bit, and the rest of it stays to enter. -/
theorem crcShift_xor (r x : BitVec 16) : crcShift (r ^^^ x) = crcBit r x.msb ^^^ (x <<< 1) := by
  have generator : (if (r ^^^ x).msb then 0x1021#16 else 0) = if r.msb = x.msb then 0 else 0x1021#16 := by
    rw [BitVec.msb_xor]
    cases r.msb <;> cases x.msb <;> rfl
  rw [crcShift_eq, generator, BitVec.shiftLeft_xor_distrib, crcBit, BitVec.xor_assoc, BitVec.xor_assoc, BitVec.xor_comm (x <<< 1)]

theorem crcShifts_xor (n : Nat) (r x : BitVec 16) :
    crcShifts n (r ^^^ x) = (topBits n x).foldl crcBit r ^^^ (x <<< n) := by
  induction n generalizing r x with
  | zero => simp [crcShifts, topBits]
  | succ n ih =>
    rw [crcShifts, crcShift_xor, ih, topBits, List.foldl_cons, ← BitVec.shiftLeft_add, Nat.add_comm 1 n]

/-- A register that its own first `n` bits enter only shifts: each of them takes the generator away. -/
theorem foldl_crcBit_topBits (n : Nat) (r : BitVec 16) : (topBits n r).foldl crcBit r = r <<< n := by
  induction n generalizing r with
  | zero => simp [topBits]
  | succ n ih => rw [topBits, List.foldl_cons, crcBit_msb, ih, ← BitVec.shiftLeft_add, Nat.add_comm 1 n]

/-! ### Bytes entering the register (R172) -/

/-- The eight bits at the top of a register are those of its high byte. -/
theorem topBits_eight (r : BitVec 16) : topBits 8 r = byteBits (r.extractLsb' 8 8) := by
  simp [topBits, byteBits, BitVec.msb_eq_getLsbD_last]

theorem extractLsb'_high_of_setWidth_shiftLeft (b : Byte) : (b.setWidth 16 <<< 8).extractLsb' 8 8 = b := by
  ext i hi
  have inside : 8 + i < 16 ∧ i < 16 := by omega
  simp [hi, inside]

theorem shiftLeft_eight_twice (r : BitVec 16) : r <<< 8 <<< 8 = 0#16 := by
  rw [← BitVec.shiftLeft_add]
  exact BitVec.shiftLeft_eq_zero (Nat.le_refl 16)

theorem crcByte_eq_foldl_crcBit (r : BitVec 16) (b : Byte) : crcByte r b = (byteBits b).foldl crcBit r := by
  rw [crcByte, crcShifts_xor, topBits_eight, extractLsb'_high_of_setWidth_shiftLeft, shiftLeft_eight_twice, BitVec.xor_zero]

/-- A register that its own high byte enters only shifts. -/
theorem crcByte_high (r : BitVec 16) : crcByte r (r.extractLsb' 8 8) = r <<< 8 := by
  rw [crcByte_eq_foldl_crcBit, ← topBits_eight, foldl_crcBit_topBits]

theorem extractLsb'_high_of_shiftLeft (r : BitVec 16) : (r <<< 8).extractLsb' 8 8 = r.extractLsb' 0 8 := by
  ext i hi
  have inside : 8 + i < 16 ∧ i < 16 := by omega
  simp [inside]

/-- A register that its own two bytes enter, the high one first, ends with 0. -/
theorem crcByte_high_low (r : BitVec 16) : crcByte (crcByte r (r.extractLsb' 8 8)) (r.extractLsb' 0 8) = 0#16 := by
  rw [crcByte_high, ← extractLsb'_high_of_shiftLeft, crcByte_high, shiftLeft_eight_twice]

/-! ### The CRC of a frame (R172) -/

theorem crcOf_append (l m : List Byte) : crcOf (l ++ m) = m.foldl crcByte (crcOf l) :=
  List.foldl_append

theorem crcOf_eq_foldl_crcBit (l : List Byte) : crcOf l = (l.flatMap byteBits).foldl crcBit 0xFFFF#16 := by
  rw [List.foldl_flatMap]
  exact congrArg (fun f => l.foldl f 0xFFFF#16) (funext₂ crcByte_eq_foldl_crcBit)

theorem be_two_toNat (r : BitVec 16) : be 2 r.toNat = [r.extractLsb' 8 8, r.extractLsb' 0 8] := by
  have high : BitVec.ofNat 8 (r.toNat / 256 ^ 1) = r.extractLsb' 8 8 := by
    apply BitVec.eq_of_toNat_eq
    simp [Nat.shiftRight_eq_div_pow]
  have low : BitVec.ofNat 8 (r.toNat / 256 ^ 0) = r.extractLsb' 0 8 := by
    apply BitVec.eq_of_toNat_eq
    simp
  rw [be, be, be, high, low]

theorem withCrc_eq (l : List Byte) :
    withCrc l = l ++ [(crcOf l).extractLsb' 8 8, (crcOf l).extractLsb' 0 8] := by
  rw [withCrc, be_two_toNat]

theorem crcOf_withCrc (l : List Byte) : crcOf (withCrc l) = 0 := by
  rw [withCrc_eq, crcOf_append]
  exact crcByte_high_low (crcOf l)

/-- R172: the check value, of the digits 1 to 9. -/
theorem crcOf_nine_digits : crcOf [0x31, 0x32, 0x33, 0x34, 0x35, 0x36, 0x37, 0x38, 0x39] = 0x29B1#16 := by
  simp [crcOf, crcByte, crcShifts, crcShift, BitVec.msb_eq_decide]

/-- Settles O51: the register takes a frame bit by bit, and the CRC behind the frame shifts it out. -/
theorem crcRunsBitByBit : Obligations.CrcRunsBitByBit := by
  unfold Obligations.CrcRunsBitByBit
  exact ⟨crcOf_eq_foldl_crcBit, withCrc_eq, crcOf_withCrc, crcOf_nine_digits, fun r => ⟨_, rfl⟩⟩

end Sys2Proof.Machine
end

section
/-!
What a command leaves unchanged. `Instr.part` names the block that takes a command, and `State.Frame k s t` says that `t` differs
from `s` at most in what a command of block `k` may touch.
-/

namespace Sys2Proof.Machine

/-- The block that takes a command: `ports` stands for the commands that change no other block, the reads among them. -/
inductive Part where
  | station | lanes | schedule | meter | checker | compliance | store | clips | router | bank | ports | reset
deriving DecidableEq

end Sys2Proof.Machine

namespace Sys2Proof

/-- The block that takes a command. -/
def Instr.part : Instr → Machine.Part
  | .powerOnReset _ | .warmReset .. => .reset
  | .referenceEdge _ | .referenceWatchExpiry | .oscillatorEdge | .setTime .. => .station
  | .lockGained _ | .lockLost _ | .laneSampleFrame .. | .lanePeriodEdge .. | .laneCaptionPacket .. | .laneProxyFrame .. => .lanes
  | .configureService .. | .startService .. | .stopService .. | .stage .. | .withdraw .. | .configureGroup .. | .groupStage ..
  | .scheduleMiTick .. | .recordingStateChanged .. | .meterSummaryArrival .. | .captionSummaryArrival .. => .schedule
  | .meterRunStarted _ | .meterSegmentOpened .. | .meterSegmentClosed .. | .meterRunEnded .. | .meterSampleFrame ..
  | .meterJudgment .. | .meterMiTick _ | .meterMiCompletion _ | .meterSummary _ | .startSurvey .. | .stopSurvey .. => .meter
  | .checkerRunStarted _ | .checkerSegmentOpened .. | .checkerSegmentClosed .. | .checkerRunEnded .. | .checkerCaptionPacket ..
  | .checkerMiTick _ | .rowPersistenceExpiry .. | .captionStreamExpiry _ | .miResult .. | .captionCombination _
  | .captionSummary _ => .checker
  | .recordWrite | .holdAnswer _ | .writeProfile .. | .collect .. => .compliance
  | .recorderRunStarted _ | .onAirMessage .. | .recorderRunEnded .. | .recorderSampleFrame .. | .recorderJudgment ..
  | .recorderCaptionPacket .. | .recorderProxyFrame .. | .recorderMiTick _ | .spanBoundary _ | .configureStore .. | .setReserves ..
  | .createHold .. | .automaticHoldRequest .. | .releaseHold .. | .fixHold .. | .take .. | .confirm .. | .returnTake ..
  | .archivePeriodEdge _ | .takeTimerExpiry _ => .store
  | .appendStored .. | .appendGap .. | .removeEntry .. | .markLost .. => .clips
  | .noticeArrival _ | .attentionPulse _ | .setRoute .. | .setAttentionMode .. | .readNotice _ => .router
  | .counterIncrement _ | .setAlertMask .. | .readCounters .. | .clearAlerts .. | .clearCounters .. => .bank
  | .readStatus .. | .readSchedule .. | .readSurvey .. | .readMeter .. | .readLog .. | .readChunkReview .. | .findClip ..
  | .readHolds _ | .readChunk .. | .readArchiveStatus _ | .linkAlignment _ | .linkDown _ | .linkSilenceTimeout _
  | .frameReceived _ | .requestService _ | .startSymbol _ | .dataSymbol .. => .ports

end Sys2Proof

namespace Sys2Proof.Machine

/-- What one command, other than a reset, makes of a port (R170, R171, R173, R174, R178). -/
inductive Port.Move (x : Port) : Port → Prop where
  | said (r : Response) : Move x (x.say r)
  | answered (r : Response) : Move x { x.say r with queue := x.queue.tail, serving := none }
  | failed (r : Response) (fresh : x.serving = none) : Move x { x.say r with queue := x.queue.tail }
  | passed (k : Nat) (fresh : x.serving = none) (queued : x.queue ≠ []) : Move x { x with serving := some k, passes := k }
  | lost : Move x x.linkLost
  | aligned : Move x x.linkAligned
  | started : Move x x.startFrame.1
  | data (b : Byte) : Move x (x.dataByte b).1
  | dropped : Move x { x with rx := none }
  | taken (q : Request) (up : x.link = .up) : Move x (({ x with rx := none } : Port).takeRequest q).1

/-- What some commands, other than resets, make of a port. -/
abbrev Port.Moves : Port → Port → Prop := Relation.ReflTransGen Port.Move

/-- R174: a request at the head of the queue has not been passed to its block. -/
theorem Port.unserved_eq_some_iff {x : Port} {q : Request} :
    x.unserved = some q ↔ x.serving = none ∧ x.queue.head? = some q := by
  unfold Port.unserved
  cases x.serving <;> simp

theorem Port.queued_of_unserved {x : Port} {q : Request} (h : x.unserved = some q) : x.serving = none ∧ x.queue ≠ [] := by
  obtain ⟨fresh, head⟩ := Port.unserved_eq_some_iff.mp h
  refine ⟨fresh, fun e => ?_⟩
  rw [e] at head
  cases head

/-- `t` differs from `s` at most in what a command of block `k` may touch, and the ports by moves; the messages under way are in no
frame. -/
structure State.Frame (k : Part) (s t : State) : Prop where
  station    : k ≠ .station → t.station = s.station
  lanes      : k ≠ .lanes → t.lanes = s.lanes
  views      : k ≠ .lanes → k ≠ .schedule → t.views = s.views
  map        : k ≠ .schedule → t.map = s.map
  sched      : k ≠ .schedule → t.sched = s.sched
  groups     : k ≠ .schedule → t.groups = s.groups
  meter      : k ≠ .meter → t.meter = s.meter
  checker    : k ≠ .checker → t.checker = s.checker
  compliance : k ≠ .compliance → k ≠ .schedule → t.compliance = s.compliance
  store      : k ≠ .store → t.store = s.store
  recorder   : k ≠ .store → t.recorder = s.recorder
  holds      : k ≠ .store → t.holds = s.holds
  archive    : k ≠ .store → t.archive = s.archive
  clips      : k ≠ .clips → t.clips = s.clips
  router     : k ≠ .router → t.router = s.router
  bank       : k ≠ .bank → t.bank = s.bank
  edges      : k ≠ .station → t.edges = s.edges
  openSpans  : k ≠ .schedule → t.openSpans = s.openSpans
  shares     : k ≠ .ports → t.shares = s.shares
  ports      : ∀ p : PortNo, s.ports[p].Moves t.ports[p]
  pending    : t.pending = s.pending

namespace State.Frame

variable {k : Part} {s t u : State}

theorem of_moves (h : t = { s with ports := t.ports, inFlight := t.inFlight }) (moves : ∀ p : PortNo, s.ports[p].Moves t.ports[p]) :
    Frame k s t where
  ports := moves
  station _ := by rw [h]
  lanes _ := by rw [h]
  views _ _ := by rw [h]
  map _ := by rw [h]
  sched _ := by rw [h]
  groups _ := by rw [h]
  meter _ := by rw [h]
  checker _ := by rw [h]
  compliance _ _ := by rw [h]
  store _ := by rw [h]
  recorder _ := by rw [h]
  holds _ := by rw [h]
  archive _ := by rw [h]
  clips _ := by rw [h]
  router _ := by rw [h]
  bank _ := by rw [h]
  edges _ := by rw [h]
  openSpans _ := by rw [h]
  shares _ := by rw [h]
  pending := by rw [h]

/-- The frame says nothing of the messages under way. -/
theorem of_inFlight (k : Part) (h : t = { s with inFlight := t.inFlight }) : Frame k s t := by
  rw [h]
  exact of_moves rfl fun _ => .refl

theorem refl (k : Part) (s : State) : Frame k s s := of_inFlight k rfl

/-- A move of one port. -/
theorem of_setPort (k : Part) {p : PortNo} {x : Port} (move : s.ports[p].Move x) (ms : List Instr) :
    Frame k s { s.setPort p x with inFlight := ms } := by
  refine of_moves rfl fun q => ?_
  by_cases h : q = p
  · subst h
    exact .single (by simpa [setPort] using move)
  · have ne : (p : Nat) ≠ q := fun e => h (Fin.ext e.symm)
    have same : (s.setPort p x).ports[q] = s.ports[q] := by simp [setPort, ne]
    exact same ▸ .refl

theorem trans (a : Frame k s t) (b : Frame k t u) : Frame k s u where
  station h := (b.station h).trans (a.station h)
  lanes h := (b.lanes h).trans (a.lanes h)
  views h h' := (b.views h h').trans (a.views h h')
  map h := (b.map h).trans (a.map h)
  sched h := (b.sched h).trans (a.sched h)
  groups h := (b.groups h).trans (a.groups h)
  meter h := (b.meter h).trans (a.meter h)
  checker h := (b.checker h).trans (a.checker h)
  compliance h h' := (b.compliance h h').trans (a.compliance h h')
  store h := (b.store h).trans (a.store h)
  recorder h := (b.recorder h).trans (a.recorder h)
  holds h := (b.holds h).trans (a.holds h)
  archive h := (b.archive h).trans (a.archive h)
  clips h := (b.clips h).trans (a.clips h)
  router h := (b.router h).trans (a.router h)
  bank h := (b.bank h).trans (a.bank h)
  edges h := (b.edges h).trans (a.edges h)
  openSpans h := (b.openSpans h).trans (a.openSpans h)
  shares h := (b.shares h).trans (a.shares h)
  ports p := (a.ports p).trans (b.ports p)
  pending := b.pending.trans a.pending

theorem foldl {α : Type} {f : State → α → State} (h : ∀ s a, Frame k s (f s a)) (l : List α) (s : State) :
    Frame k s (l.foldl f s) := by
  induction l generalizing s with
  | nil => exact refl k s
  | cons a l ih => exact (h s a).trans (ih _)

/-! ### What each block may touch -/

theorem of_station
    (h : t = { s with station := t.station, edges := t.edges, inFlight := t.inFlight }) :
    Frame .station s t := by
  rw [h]
  constructor <;> intros <;> trivial

theorem of_lanes
    (h : t = { s with lanes := t.lanes, views := t.views, inFlight := t.inFlight }) :
    Frame .lanes s t := by
  rw [h]
  constructor <;> intros <;> trivial

theorem of_schedule
    (h : t = { s with map := t.map, sched := t.sched, groups := t.groups, views := t.views, compliance := t.compliance, openSpans := t.openSpans, inFlight := t.inFlight }) :
    Frame .schedule s t := by
  rw [h]
  constructor <;> intros <;> trivial

theorem of_meter
    (h : t = { s with meter := t.meter, inFlight := t.inFlight }) :
    Frame .meter s t := by
  rw [h]
  constructor <;> intros <;> trivial

theorem of_checker
    (h : t = { s with checker := t.checker, inFlight := t.inFlight }) :
    Frame .checker s t := by
  rw [h]
  constructor <;> intros <;> trivial

theorem of_compliance
    (h : t = { s with compliance := t.compliance, inFlight := t.inFlight }) :
    Frame .compliance s t := by
  rw [h]
  constructor <;> intros <;> trivial

theorem of_store
    (h : t = { s with store := t.store, recorder := t.recorder, holds := t.holds, archive := t.archive, inFlight := t.inFlight }) :
    Frame .store s t := by
  rw [h]
  constructor <;> intros <;> trivial

theorem of_clips
    (h : t = { s with clips := t.clips, inFlight := t.inFlight }) :
    Frame .clips s t := by
  rw [h]
  constructor <;> intros <;> trivial

theorem of_router
    (h : t = { s with router := t.router, inFlight := t.inFlight }) :
    Frame .router s t := by
  rw [h]
  constructor <;> intros <;> trivial

theorem of_bank
    (h : t = { s with bank := t.bank, inFlight := t.inFlight }) :
    Frame .bank s t := by
  rw [h]
  constructor <;> intros <;> trivial

theorem of_ports
    (h : t = { s with shares := t.shares, inFlight := t.inFlight }) :
    Frame .ports s t := by
  rw [h]
  constructor <;> intros <;> trivial

/-! ### The operations that every block shares -/

theorem arrive (s : State) (c : Instr) : Frame k s (s.arrive c) := of_inFlight k rfl

theorem respond (h : Frame k s t) (rq : Req) (st : Status) (a : Answer) : Frame k s (t.respond rq st a) := by
  refine h.trans ?_
  unfold State.respond
  dsimp only
  split
  · exact of_setPort k (.said _) _
  · split
    · split
      · exact of_setPort k (.answered _) _
      · exact of_setPort k (.answered _) _
    · exact refl k t

theorem refuse (h : Frame k s t) (rq : Req) (st : Status) : Frame k s (t.refuse rq st) := h.respond rq st .nothing

theorem respondOk (h : Frame k s t) (rq : Req) (clamped : Bool) (a : Answer) : Frame k s (t.respondOk rq clamped a) :=
  h.respond rq _ a

theorem serve (s : State) (p : PortNo) : Frame k s (s.serve p) := by
  unfold State.serve
  dsimp only
  split
  · exact refl k s
  · next q waits =>
    obtain ⟨fresh, queued⟩ := Port.queued_of_unserved waits
    split
    · exact of_setPort k (.passed _ fresh queued) _
    · split
      · exact of_setPort k (.failed _ fresh) _
      · exact of_setPort k (.failed _ fresh) _

theorem setPort_twice (s : State) (p : PortNo) (x y : Port) : (s.setPort p x).setPort p y = s.setPort p y := by
  simp [State.setPort, Vector.set_set]

theorem linkLoss (s : State) (p : PortNo) : Frame k s (s.linkLoss p) := by
  unfold State.linkLoss
  dsimp only
  split
  · exact refl k s
  · split
    · exact of_setPort k .lost _
    · next q waits =>
      obtain ⟨fresh, queued⟩ := Port.queued_of_unserved waits
      split
      · next c _ =>
        let x : Port := { s.ports[p] with serving := some (s.ports[p].passes + 1), passes := s.ports[p].passes + 1 }
        have passed : Frame k s (s.setPort p x) := of_setPort k (.passed _ fresh queued) _
        have lose : (s.setPort p x).ports[p].Move x.linkLost := by simpa [State.setPort] using Port.Move.lost (x := x)
        have both := passed.trans (of_setPort k lose (s.inFlight ++ [c]))
        rwa [setPort_twice] at both
      · exact of_setPort k .lost _

theorem noteInput (s : State) (l : Lane) (t : Mi) (j : Judgment) (i : Svc) : Frame .lanes s (s.noteInput l t j i) := by
  refine of_lanes ?_
  unfold State.noteInput
  dsimp only
  split <;> rfl

theorem settleClosing (s : State) (i : Svc) : Frame .schedule s (s.settleClosing i) := by
  refine of_schedule ?_
  rw [State.settleClosing_eq]
  split <;> rfl

theorem scheduleTick (s : State) (t : Mi) (held : Bool) (j : Int) (i : Svc) : Frame .schedule s (s.scheduleTick t held j i) :=
  (of_schedule rfl).trans (settleClosing _ i)

theorem expireTake (s : State) (begun : Option Mi) (t : Take) : Frame .store s (s.expireTake begun t) := by
  refine of_store ?_
  unfold State.expireTake
  split <;> rfl

end State.Frame

/-! ### Commands by block -/

section
variable {c : Instr} {s t : State}

theorem exec_frame_ports (hc : c.part = .ports) (h : exec c s = .next t) : State.Frame .ports s t := by
  cases c <;> cases hc <;> obtain rfl := Host.Outcome.next.inj h
  case readStatus rq n =>
    split
    · exact (State.Frame.of_ports rfl).respond ..
    · split
      · exact .of_ports rfl
      · exact (State.Frame.arrive ..).respond ..
      · exact (State.Frame.arrive ..).refuse ..
  case readSchedule | readSurvey | readMeter =>
    split
    · exact (State.Frame.arrive ..).refuse ..
    · exact (State.Frame.arrive ..).respond ..
  case readLog | readHolds | readArchiveStatus => exact (State.Frame.arrive ..).respond ..
  case readChunkReview =>
    split
    · exact (State.Frame.arrive ..).refuse ..
    · split
      · exact (State.Frame.arrive ..).refuse ..
      · exact (State.Frame.arrive ..).respond ..
  case findClip =>
    split
    · exact (State.Frame.arrive ..).refuse ..
    · split
      · exact (State.Frame.arrive ..).refuse ..
      · exact (State.Frame.arrive ..).respond ..
  case readChunk =>
    split
    · exact (State.Frame.arrive ..).refuse ..
    · split
      · exact (State.Frame.arrive ..).refuse ..
      · exact (State.Frame.arrive ..).respond ..
  case linkAlignment => exact .of_setPort _ .aligned _
  case startSymbol => exact .of_setPort _ .started _
  case dataSymbol b => exact .of_setPort _ (.data b) _
  case linkDown | linkSilenceTimeout => exact .linkLoss ..
  case requestService => exact (State.Frame.arrive ..).trans (.serve ..)
  case frameReceived =>
    split
    · next up rx =>
      split
      · exact .of_setPort _ .dropped _
      · exact .of_setPort _ (.taken _ up) _
    · exact .refl ..

theorem exec_frame_station (hc : c.part = .station) (h : exec c s = .next t) : State.Frame .station s t := by
  cases c <;> cases hc <;> obtain rfl := Host.Outcome.next.inj h
  case setTime =>
    split
    · exact (State.Frame.arrive ..).refuse ..
    · exact (State.Frame.of_station rfl).respond ..
  all_goals
    split <;> exact .of_station rfl

theorem exec_frame_lanes (hc : c.part = .lanes) (h : exec c s = .next t) : State.Frame .lanes s t := by
  cases c <;> cases hc <;> obtain rfl := Host.Outcome.next.inj h
  case lockGained | lockLost => exact .of_lanes rfl
  case laneSampleFrame =>
    split
    · exact .refl ..
    · split <;> exact .of_lanes rfl
  case lanePeriodEdge =>
    split
    · exact .of_lanes rfl
    · exact (State.Frame.of_lanes rfl).trans (.foldl (fun _ _ => .noteInput ..) ..)
  case laneCaptionPacket | laneProxyFrame =>
    split <;> exact .of_lanes rfl

theorem exec_frame_schedule (hc : c.part = .schedule) (h : exec c s = .next t) : State.Frame .schedule s t := by
  cases c <;> cases hc <;> obtain rfl := Host.Outcome.next.inj h
  case configureService =>
    split
    · split
      · exact (State.Frame.of_schedule rfl).respondOk ..
      · exact (State.Frame.arrive ..).refuse ..
    · exact (State.Frame.arrive ..).refuse ..
  case startService =>
    split
    · exact (State.Frame.arrive ..).refuse ..
    · split
      · exact (State.Frame.of_schedule rfl).respond ..
      · exact (State.Frame.arrive ..).refuse ..
  case stopService =>
    split
    · exact (State.Frame.arrive ..).refuse ..
    · split
      · exact (State.Frame.arrive ..).refuse ..
      · exact (State.Frame.of_schedule rfl).respond ..
  case stage =>
    split
    · split
      · exact (State.Frame.arrive ..).refuse ..
      · exact (State.Frame.of_schedule rfl).respondOk ..
    · exact (State.Frame.arrive ..).refuse ..
  case withdraw =>
    split
    · exact (State.Frame.arrive ..).refuse ..
    · split
      · exact (State.Frame.arrive ..).refuse ..
      · exact (State.Frame.of_schedule rfl).respond ..
  case configureGroup =>
    split
    · exact (State.Frame.arrive ..).refuse ..
    · split
      · exact (State.Frame.of_schedule rfl).respond ..
      · exact (State.Frame.arrive ..).refuse ..
  case groupStage =>
    split
    · split
      · exact (State.Frame.arrive ..).refuse ..
      · dsimp only
        split
        · exact (State.Frame.arrive ..).respond ..
        · exact ((State.Frame.arrive ..).trans (.foldl (fun _ _ => .of_schedule rfl) ..)).respondOk ..
    · exact (State.Frame.arrive ..).refuse ..
  case scheduleMiTick =>
    exact (State.Frame.arrive ..).trans (.foldl (fun x i => .scheduleTick x ..) ..)
  case recordingStateChanged =>
    split <;> exact .of_schedule rfl
  case meterSummaryArrival | captionSummaryArrival => exact (State.Frame.of_schedule rfl).trans (.settleClosing ..)

theorem exec_frame_meter (hc : c.part = .meter) (h : exec c s = .next t) : State.Frame .meter s t := by
  cases c <;> cases hc <;> obtain rfl := Host.Outcome.next.inj h
  case meterMiTick => exact (State.Frame.arrive ..).trans (.foldl (fun _ _ => .of_meter rfl) ..)
  case startSurvey =>
    split
    · exact (State.Frame.arrive ..).refuse ..
    · split
      · exact (State.Frame.of_meter rfl).respond ..
      · exact (State.Frame.arrive ..).refuse ..
  case stopSurvey =>
    split
    · exact (State.Frame.arrive ..).refuse ..
    · split
      · exact (State.Frame.arrive ..).refuse ..
      · exact (State.Frame.of_meter rfl).respond ..
  all_goals exact .of_meter rfl

theorem exec_frame_checker (hc : c.part = .checker) (h : exec c s = .next t) : State.Frame .checker s t := by
  cases c <;> cases hc <;> obtain rfl := Host.Outcome.next.inj h
  case checkerMiTick => exact (State.Frame.arrive ..).trans (.foldl (fun _ _ => .of_checker rfl) ..)
  case captionStreamExpiry =>
    split <;> exact .of_checker rfl
  all_goals exact .of_checker rfl

theorem exec_frame_compliance (hc : c.part = .compliance) (h : exec c s = .next t) : State.Frame .compliance s t := by
  cases c <;> cases hc <;> obtain rfl := Host.Outcome.next.inj h
  case recordWrite => exact .of_compliance rfl
  case holdAnswer =>
    split <;> exact .of_compliance rfl
  case writeProfile =>
    split
    · exact (State.Frame.of_compliance rfl).respondOk ..
    · exact (State.Frame.arrive ..).refuse ..
  case collect => exact (State.Frame.of_compliance rfl).respond ..

theorem exec_frame_store (hc : c.part = .store) (h : exec c s = .next t) : State.Frame .store s t := by
  cases c <;> cases hc <;> obtain rfl := Host.Outcome.next.inj h
  case recorderMiTick => exact (State.Frame.arrive ..).trans (.foldl (fun _ _ => .of_store rfl) ..)
  case configureStore =>
    split
    · exact (State.Frame.arrive ..).refuse ..
    · exact (State.Frame.of_store rfl).respondOk ..
  case setReserves =>
    split
    · exact (State.Frame.arrive ..).refuse ..
    · exact (State.Frame.of_store rfl).respondOk ..
  case createHold =>
    split
    · exact (State.Frame.arrive ..).refuse ..
    · split
      · exact (State.Frame.arrive ..).refuse ..
      · split
        · exact (State.Frame.arrive ..).refuse ..
        · exact (State.Frame.of_store rfl).respond ..
  case automaticHoldRequest =>
    split <;> exact .of_store rfl
  case releaseHold =>
    split
    · exact (State.Frame.arrive ..).refuse ..
    · split
      · exact (State.Frame.arrive ..).refuse ..
      · split
        · exact (State.Frame.arrive ..).refuse ..
        · exact (State.Frame.of_store rfl).respond ..
  case fixHold =>
    split
    · exact (State.Frame.arrive ..).refuse ..
    · split
      · exact (State.Frame.arrive ..).refuse ..
      · exact (State.Frame.of_store rfl).respond ..
  case take =>
    split
    · exact (State.Frame.arrive ..).refuse ..
    · split
      · exact (State.Frame.arrive ..).refuse ..
      · split
        · exact (State.Frame.arrive ..).refuse ..
        · exact (State.Frame.of_store rfl).respondOk ..
  case confirm =>
    split
    · exact (State.Frame.arrive ..).refuse ..
    · split
      · exact (State.Frame.of_store rfl).respond ..
      · split
        · exact (State.Frame.arrive ..).respond ..
        · exact (State.Frame.arrive ..).refuse ..
  case returnTake =>
    split
    · exact (State.Frame.arrive ..).refuse ..
    · split
      · exact (State.Frame.arrive ..).refuse ..
      · exact (State.Frame.of_store rfl).respond ..
  case archivePeriodEdge => exact (State.Frame.of_store rfl).trans (.foldl (fun _ _ => .expireTake ..) ..)
  case takeTimerExpiry =>
    split
    · exact .refl ..
    · split
      · exact .expireTake ..
      · exact .refl ..
  all_goals exact .of_store rfl

theorem exec_frame_clips (hc : c.part = .clips) (h : exec c s = .next t) : State.Frame .clips s t := by
  cases c <;> cases hc <;> obtain rfl := Host.Outcome.next.inj h <;> exact .of_clips rfl

theorem exec_frame_router (hc : c.part = .router) (h : exec c s = .next t) : State.Frame .router s t := by
  cases c <;> cases hc <;> obtain rfl := Host.Outcome.next.inj h
  case noticeArrival | attentionPulse => exact .of_router rfl
  case setRoute | setAttentionMode =>
    split
    · exact (State.Frame.of_router rfl).respond ..
    · exact (State.Frame.arrive ..).refuse ..
  case readNotice =>
    split
    · exact (State.Frame.arrive ..).refuse ..
    · exact (State.Frame.of_router rfl).respond ..

theorem exec_frame_bank (hc : c.part = .bank) (h : exec c s = .next t) : State.Frame .bank s t := by
  cases c <;> cases hc <;> obtain rfl := Host.Outcome.next.inj h
  case counterIncrement => exact .of_bank rfl
  case setAlertMask => exact (State.Frame.of_bank rfl).respondOk ..
  case readCounters | clearAlerts | clearCounters =>
    split
    · exact (State.Frame.arrive ..).refuse ..
    · exact (State.Frame.of_bank rfl).respond ..

/-- What a command other than the two resets leaves unchanged. -/
theorem exec_frame (hc : c.part ≠ .reset) (h : exec c s = .next t) : State.Frame c.part s t := by
  cases hk : c.part with
  | station => exact exec_frame_station hk h
  | lanes => exact exec_frame_lanes hk h
  | schedule => exact exec_frame_schedule hk h
  | meter => exact exec_frame_meter hk h
  | checker => exact exec_frame_checker hk h
  | compliance => exact exec_frame_compliance hk h
  | store => exact exec_frame_store hk h
  | clips => exact exec_frame_clips hk h
  | router => exact exec_frame_router hk h
  | bank => exact exec_frame_bank hk h
  | ports => exact exec_frame_ports hk h
  | reset => exact absurd hk hc

end

/-! ### The resets -/

namespace State

/-- A predicate that every round of a fold keeps is kept by the fold. -/
theorem foldl_induction {α : Type} (P : State → Prop) {f : State → α → State} (h : ∀ s a, P s → P (f s a)) (l : List α)
    {s : State} (hs : P s) : P (l.foldl f s) := by
  induction l generalizing s with
  | nil => exact hs
  | cons a l ih => exact ih (h s a hs)

/-- The state that a warm reset leaves, before it is answered. -/
def warmed (s : State) (rq : Req) (straps : Straps) : State :=
  { s with inFlight := s.inFlight.filter fun c => !isWarmResetOf rq c
    }.passServed.warmRouter.dropRunStarted.warmSchedule.warmMeasures.warmRecorder.warmBank.warmPorts straps

theorem exec_warmReset (rq : Req) (straps : Straps) (s : State) :
    exec (.warmReset rq straps) s = .next ((s.warmed rq straps).respond rq .ok .nothing) := rfl

theorem Frame.passServed (k : Part) (s : State) : Frame k s s.passServed := .foldl (fun _ _ => .serve ..) ..

theorem Frame.warmRouter (s : State) : Frame .router s s.warmRouter := .of_router rfl

theorem Frame.dropRunStarted (k : Part) (s : State) : Frame k s s.dropRunStarted := .of_inFlight k rfl

theorem Frame.warmSchedule (s : State) : Frame .schedule s s.warmSchedule := .of_schedule rfl

theorem warmMeasures_eq (s : State) :
    s.warmMeasures = { s with meter := mapVec MeterSvc.warmReset s.meter, checker := mapVec CheckerSvc.warmReset s.checker } :=
  rfl

theorem Frame.warmRecorder (s : State) : Frame .store s s.warmRecorder :=
  (Frame.foldl (fun _ _ => .of_store rfl) allSvcs s).trans (.of_store rfl)

theorem Frame.bankAdd (s : State) (c : Counter) : Frame .bank s (s.bankAdd c) := .of_bank rfl

theorem Frame.warmBank (s : State) : Frame .bank s s.warmBank :=
  (Frame.of_bank (t := { s with inFlight := s.inFlight.filter fun c => (incrementOf c).isNone }) rfl).trans
    ((Frame.foldl Frame.bankAdd _ _).trans (.of_bank rfl))

end State

/-! ### The step, and the completion of every command -/

/-- Settles O1: the definition of the step, case by case. -/
theorem stepTakesTheFrontCommandOrAMessage : Obligations.StepTakesTheFrontCommandOrAMessage := by
  unfold Obligations.StepTakesTheFrontCommandOrAMessage
  refine ⟨fun c cs s h => ?_, fun s h => ⟨fun c ms hm => ?_, fun hm => ?_⟩⟩
  · rw [step, h]
  · rw [step, h, hm]
  · rw [step, h, hm]

/-- A step runs one command on the part, or leaves it as it is. -/
theorem step_cases {s t : State} (h : step s = .next t) :
    t = s ∨ ∃ c u, exec c u = .next t ∧ u = { s with pending := u.pending } := by
  unfold step at h
  split at h
  · exact .inr ⟨_, _, h, rfl⟩
  · split at h
    · exact .inr ⟨_, _, h, rfl⟩
    · exact .inl (Host.Outcome.next.inj h).symm

/-- No command stops. -/
theorem exec_completes (c : Instr) (s : State) : ∃ t, exec c s = .next t := by
  cases c <;> exact ⟨_, rfl⟩

/-- What every block of a warm reset keeps is kept by the reset. -/
theorem State.warmed_keeps {α : Type} (f : State → α) (flight : ∀ u ms, f { u with inFlight := ms } = f u)
    (served : ∀ u : State, f u.passServed = f u) (router : ∀ u : State, f u.warmRouter = f u)
    (schedule : ∀ u : State, f u.warmSchedule = f u) (measures : ∀ u : State, f u.warmMeasures = f u)
    (recorder : ∀ u : State, f u.warmRecorder = f u) (bank : ∀ u : State, f u.warmBank = f u)
    (ports : ∀ (u : State) straps, f (u.warmPorts straps) = f u) (s : State) (rq : Req) (straps : Straps) :
    f (s.warmed rq straps) = f s := by
  have dropped (u : State) : f u.dropRunStarted = f u := flight u _
  unfold warmed
  rw [ports, bank, recorder, measures, schedule, dropped, router, served, flight]

theorem State.warmed_pending (s : State) (rq : Req) (straps : Straps) : (s.warmed rq straps).pending = s.pending :=
  s.warmed_keeps State.pending (fun _ _ => rfl) (fun u => (Frame.passServed .ports u).pending) (fun _ => rfl)
    (fun u => (Frame.warmSchedule u).pending) (fun _ => rfl) (fun u => (Frame.warmRecorder u).pending)
    (fun u => (Frame.warmBank u).pending) (fun _ _ => rfl) rq straps

theorem reset_cases_of_part {c : Instr} (h : c.part = .reset) :
    (∃ straps, c = .powerOnReset straps) ∨ ∃ rq straps, c = .warmReset rq straps := by
  cases c <;> cases h
  · exact .inl ⟨_, rfl⟩
  · exact .inr ⟨_, _, rfl⟩

theorem exec_pending {c : Instr} {s t : State} (h : exec c s = .next t) : t.pending = s.pending := by
  by_cases hk : c.part = .reset
  · rcases reset_cases_of_part hk with ⟨straps, rfl⟩ | ⟨rq, straps, rfl⟩
    · rw [← Host.Outcome.next.inj h]
    · rw [State.exec_warmReset] at h
      rw [← Host.Outcome.next.inj h, State.respond_pending, State.warmed_pending]
  · exact (exec_frame hk h).pending

/-- Settles O2: no arm of the model stops, and the queue is in the frame of every command. -/
theorem everyCommandCompletes : Obligations.EveryCommandCompletes := by
  unfold Obligations.EveryCommandCompletes
  intro c s
  obtain ⟨t, h⟩ := exec_completes c s
  exact ⟨t, h, exec_pending h⟩

/-! ### Responses (R170, R173, R174, R178) -/

/-- Settles O3: a response by the pass it carries, and the line by the state of the link. -/
theorem responseLeavesThePort : Obligations.ResponseLeavesThePort := by
  unfold Obligations.ResponseLeavesThePort
  intro s p tag st a x out
  refine ⟨State.respond_direct s p tag st a, fun k => ⟨fun serving => ?_, State.respond_lost s p tag k st a⟩⟩
  have empty : x.queue.tail.isEmpty = true ↔ x.queue.length ≤ 1 := by
    rw [List.isEmpty_iff_length_eq_zero, List.length_tail]
    omega
  rw [State.respond_served s p tag k st a serving, if_congr empty rfl rfl]
  rfl

end Sys2Proof.Machine
end

section
/-!
One service of the schedule unit (chapter 2): what staging, a tick, a summary and the recording view do to it, each said once.
-/

namespace Sys2Proof.Machine

/-! ### Folds over services -/

/-- A fold in which every round replaces one service's place of a vector, by a value that the other rounds do not change. -/
theorem State.foldl_each {β : Type} (F : State → Vector β 16) {f : State → Svc → State} {g : State → Svc → β}
    (replace : ∀ s i, F (f s i) = (F s).set i (g s i)) (others : ∀ s i j, j ≠ i → g (f s i) j = g s j)
    {l : List Svc} (nodup : l.Nodup) (s : State) (i : Svc) :
    (F (l.foldl f s))[i] = if i ∈ l then g s i else (F s)[i] := by
  induction l generalizing s with
  | nil => rfl
  | cons j l ih =>
    obtain ⟨hj, hl⟩ := List.nodup_cons.mp nodup
    rw [List.foldl_cons, ih hl, replace]
    by_cases e : i = j
    · subst e
      simp [hj]
    · rw [others s j i e]
      have : (j : Nat) ≠ i := fun h => e (Fin.ext h.symm)
      simp [e, this]

theorem allSvcs_nodup : allSvcs.Nodup := List.nodup_finRange 16

namespace ServiceSched

/-! ### Staging (R21, R22) -/

theorem closedToStaging_iff (x : ServiceSched) :
    x.closedToStaging = true ↔ x.state = .disabled ∨ (x.state = .running ∧ x.stopPending = true) := by
  simp [closedToStaging]

/-- R22: checks 4 to 7 in their order. -/
theorem stageCheck_eq (x : ServiceSched) (id : Nat) (start : Mi) :
    x.stageCheck id start =
      if x.state = .disabled ∨ (x.state = .running ∧ x.stopPending = true) then some .state
      else if 4 ≤ x.staging.length then some .full
      else if ∃ e, x.staging.getLast? = some e ∧ start ≤ e.start then some .order
      else if (∃ e ∈ x.staging, e.id = id) ∨ x.openId = some id then some .conflict
      else none := by
  unfold stageCheck
  refine if_congr x.closedToStaging_iff rfl (if_congr Iff.rfl rfl (if_congr ?_ rfl (if_congr ?_ rfl rfl)))
  · cases x.staging.getLast? <;> simp
  · simp

theorem stageCheck_eq_none_iff (x : ServiceSched) (id : Nat) (start : Mi) :
    x.stageCheck id start = none ↔
      x.closedToStaging = false ∧ x.staging.length < 4 ∧ (∀ e, x.staging.getLast? = some e → e.start < start) ∧
        (∀ e ∈ x.staging, e.id ≠ id) ∧ x.openId ≠ some id := by
  rw [stageCheck_eq, ← Bool.not_eq_true, closedToStaging_iff]
  split
  · simp [*]
  · split
    · simp [*]
    · split
      · next h =>
        obtain ⟨e, he, hs⟩ := h
        simp only [reduceCtorEq, false_iff]
        exact fun ⟨_, _, last, _⟩ => absurd (last e he) (Nat.not_lt.mpr hs)
      · next h =>
        have last : ∀ e, x.staging.getLast? = some e → e.start < start := by simpa using h
        split
        · next hc =>
          simp only [reduceCtorEq, false_iff]
          rintro ⟨_, _, _, ids, openId⟩
          rcases hc with ⟨e, he, rfl⟩ | hc
          · exact ids e he rfl
          · exact openId hc
        · next hc =>
          simp only [not_or, not_exists, not_and] at hc
          simp only [true_iff]
          exact ⟨by assumption, by omega, last, hc.1, hc.2⟩

/-! ### Openings and closings at a tick (R20, R27, R28, R31) -/

/-- R20, R28: the due descriptors that give way enter the closing set in their order, each under the next number. -/
theorem foldl_skip (t : Mi) (gone : List Descriptor) (x : ServiceSched) :
    gone.foldl (fun y e => y.skip t e) x =
      { x with
        instCounter := nextInstance^[gone.length] x.instCounter
        closing := x.closing ++ gone.mapIdx fun k e => Segment.skipped (nextInstance^[k + 1] x.instCounter) e t } := by
  induction gone generalizing x with
  | nil => simp
  | cons e gone ih =>
    rw [List.foldl_cons, ih]
    simp [skip, List.mapIdx_cons]

theorem openDue_of_none_due {x : ServiceSched} {t : Mi} (h : x.due t = []) (svc : Svc) (r : ServiceRecord) :
    x.openDue svc r t = x.openNew svc fun n => Segment.unscheduled n r t := by
  unfold openDue
  rw [h]
  rfl

theorem openDue_of_due {x : ServiceSched} {t : Mi} {gone : List Descriptor} {d : Descriptor} (h : x.due t = gone ++ [d])
    (svc : Svc) (r : ServiceRecord) :
    x.openDue svc r t =
      { x with
        staging := x.notDue t
        instCounter := nextInstance^[gone.length] x.instCounter
        closing := x.closing ++ gone.mapIdx fun k e => Segment.skipped (nextInstance^[k + 1] x.instCounter) e t
        : ServiceSched }.openNew svc fun n => Segment.staged n d t := by
  unfold openDue
  rw [h, List.getLast?_concat, List.dropLast_concat]
  dsimp only
  rw [foldl_skip]

theorem due_eq_nil_iff (x : ServiceSched) (t : Mi) : x.due t = [] ↔ ∀ d ∈ x.staging, t < d.start := by
  simp [due]

theorem notDue_of_none_due {x : ServiceSched} {t : Mi} (h : x.due t = []) : x.notDue t = x.staging :=
  List.filter_eq_self.mpr fun d hd => decide_eq_true ((due_eq_nil_iff x t).mp h d hd)

end ServiceSched

/-- R31: the segment has its end and its cause, as every entry of a closing set. -/
def Segment.Closed (g : Segment) : Prop := g.endMi.isSome ∧ g.cause.isSome

namespace ServiceSched

/-- R20, R27, R28: an opening under the due descriptors, or an UNSCHEDULED one. -/
theorem openDue_fst (x : ServiceSched) (svc : Svc) (r : ServiceRecord) (t : Mi) :
    ∃ n gone seg, (x.openDue svc r t).1 =
        { x with staging := x.notDue t, instCounter := n, openSeg := some seg, closing := x.closing ++ gone } ∧
      (∀ g ∈ gone, g.Closed) ∧ ∀ id, seg.id = some id → ∃ d ∈ x.staging, d.id = id ∧ d.start ≤ t := by
  rcases List.eq_nil_or_concat (x.due t) with none_due | ⟨gone, d, due⟩
  · rw [openDue_of_none_due none_due]
    let n := nextInstance x.instCounter
    refine ⟨n, [], Segment.unscheduled n r t, ?_, by simp, nofun⟩
    rw [notDue_of_none_due none_due, List.append_nil]
    rfl
  · rw [List.concat_eq_append] at due
    rw [openDue_of_due due]
    refine ⟨_, _, _, rfl, ?_, ?_⟩
    · intro g hg
      obtain ⟨k, hk, rfl⟩ := List.mem_mapIdx.mp hg
      exact ⟨rfl, rfl⟩
    · rintro _ ⟨⟩
      have hd : d ∈ x.due t := due ▸ List.mem_append_right gone List.mem_cons_self
      obtain ⟨mem, start⟩ := List.mem_filter.mp hd
      exact ⟨d, mem, rfl, of_decide_eq_true start⟩

/-- R31: the open segment, if there is one, closes and joins the closing set. -/
theorem closeOpen_eq (x : ServiceSched) (svc : Svc) (cause : Cause) (t : Mi) :
    x.closeOpen svc cause t =
      ({ x with openSeg := none, closing := x.closing ++ x.openSeg.toList.map fun g => g.close cause t },
        x.openSeg.toList.flatMap fun g => closedMessages svc g t) := by
  cases x with | mk state stopPending staging openSeg =>
  cases openSeg <;> simp [closeOpen]

theorem closed_of_mem_close {l : List Segment} {cause : Cause} {t : Mi} :
    ∀ g ∈ l.map fun g => g.close cause t, g.Closed := by
  intro g hg
  obtain ⟨_, _, rfl⟩ := List.mem_map.mp hg
  exact ⟨rfl, rfl⟩

/-- What a tick makes of a service (2.4): nothing, a mark on the open segment, a stop, or an opening. -/
inductive Ticked (x : ServiceSched) (t : Mi) : ServiceSched → Prop where
  | idle : Ticked x t x
  | marked (held : Bool) : Ticked x t (x.markReference held)
  | stopped (gone : List Segment) (closed : ∀ g ∈ gone, g.Closed) :
    Ticked x t { x with state := .ready, stopPending := false, openSeg := none, closing := x.closing ++ gone }
  | opened (n : Nat) (seg : Segment) (gone : List Segment) (runInst : Option Nat)
    (acts : x.state = .starting ∨ (x.state = .running ∧ x.stopPending = false)) (closed : ∀ g ∈ gone, g.Closed)
    (ids : ∀ id, seg.id = some id → ∃ d ∈ x.staging, d.id = id ∧ d.start ≤ t) :
    Ticked x t
      { x with
        state := .running, staging := x.notDue t, openSeg := some seg, instCounter := n, closing := x.closing ++ gone
        runInst := runInst }

theorem markReference_eq (x : ServiceSched) (held : Bool) :
    x.markReference held =
      { x with openSeg := x.openSeg.map fun g => { g with referenceLost := g.referenceLost || !held } } := by
  cases held
  · simp [markReference]
  · have same (o : Option Segment) : (o.map fun g => { g with referenceLost := g.referenceLost || !true }) = o := by
      cases o <;> simp
    rw [same]
    rfl

/-- R29, R30: the open segment closes and an UNSCHEDULED one takes its place; none is due. -/
theorem ticked_replaceOpen {x : ServiceSched} {t : Mi} (running : x.state = .running) (going : x.stopPending = false)
    (held : Bool) (none_due : x.due t = []) (svc : Svc) (r : ServiceRecord) (cause : Cause) :
    x.Ticked t ((x.markReference held).replaceOpen svc r cause t).1 := by
  unfold replaceOpen
  rw [closeOpen_eq, markReference_eq]
  have h := Ticked.opened (x := x) (t := t) (nextInstance x.instCounter) (.unscheduled (nextInstance x.instCounter) r t) _
    x.runInst (.inr ⟨running, going⟩)
    (closed_of_mem_close (l := (x.markReference held).openSeg.toList) (cause := cause) (t := t)) nofun
  rw [notDue_of_none_due none_due, ← running, markReference_eq] at h
  exact h

/-- R28: due descriptors take over from the open segment. -/
theorem ticked_switchTick {x : ServiceSched} {t : Mi} (running : x.state = .running) (going : x.stopPending = false)
    (held : Bool) (svc : Svc) (r : ServiceRecord) : x.Ticked t ((x.markReference held).switchTick svc r t).1 := by
  unfold switchTick
  rw [closeOpen_eq]
  dsimp only
  obtain ⟨n, gone, seg, eq, closed, ids⟩ := openDue_fst
    { x.markReference held with
      openSeg := none
      closing := (x.markReference held).closing ++ (x.markReference held).openSeg.toList.map fun g => g.close .next t } svc r t
  rw [eq]
  rw [markReference_eq] at ids ⊢
  have all := List.forall_mem_append.mpr ⟨closed_of_mem_close (l := (x.markReference held).openSeg.toList)
    (cause := .next) (t := t), closed⟩
  have h := Ticked.opened (x := x) (t := t) n seg _ x.runInst (.inr ⟨running, going⟩) all ids
  rw [← List.append_assoc, ← running, markReference_eq] at h
  exact h

theorem tick_fst (x : ServiceSched) (svc : Svc) (r : ServiceRecord) (profiles : Vector Profile 8) (t : Mi) (held : Bool) :
    x.Ticked t (x.tick svc r profiles t held).1 := by
  unfold tick
  cases hs : x.state with
  | disabled | ready => exact .idle
  | starting =>
    obtain ⟨n, gone, seg, eq, closed, ids⟩ := x.openDue_fst svc r t
    dsimp only [openingTick]
    rw [eq]
    exact .opened n seg gone (some seg.inst) (.inl hs) closed ids
  | running =>
    dsimp only
    have state : (x.markReference held).state = x.state := by rw [markReference_eq]
    have stop : (x.markReference held).stopPending = x.stopPending := by rw [markReference_eq]
    have due : (x.markReference held).due t = x.due t := by rw [markReference_eq]; rfl
    rw [stop, due]
    split
    · unfold stoppingTick
      rw [closeOpen_eq, markReference_eq]
      exact .stopped _ closed_of_mem_close
    · next going =>
      split
      · next none_due =>
        rw [List.isEmpty_iff] at none_due
        have replaced := ticked_replaceOpen hs (by simpa using going) held none_due svc r
        unfold lengthTick
        split
        · exact .marked held
        · split
          · split
            · exact replaced .rollover
            · exact .marked held
          · split
            · exact replaced .overrun
            · exact .marked held
      · exact ticked_switchTick hs (by simpa using going) held svc r

/-! ### The closing set (R32) -/

/-- The closing set after the entries at its head have completed (R32). -/
def settled (x : ServiceSched) : ServiceSched := { x with closing := x.closing.dropWhile Segment.complete }

end ServiceSched

theorem State.settleClosing_sched (s : State) (i : Svc) : (s.settleClosing i).sched = s.sched.set i s.sched[i].settled := by
  rw [State.settleClosing_eq]
  split
  · next h =>
    have same : s.sched[i].closing.dropWhile Segment.complete = s.sched[i].closing := by
      have := List.takeWhile_append_dropWhile (p := Segment.complete) (l := s.sched[i].closing)
      rwa [h, List.nil_append] at this
    have unchanged : s.sched[i].settled = s.sched[i] := by rw [ServiceSched.settled, same]
    rw [unchanged]
    simp
  · simp [ServiceSched.settled]

theorem State.settleClosing_setSched_sched (s : State) (i : Svc) (x : ServiceSched) :
    ((s.setSched i x).settleClosing i).sched = s.sched.set i x.settled := by
  rw [State.settleClosing_sched]
  simp

theorem State.scheduleTick_sched (s : State) (t : Mi) (held : Bool) (k : Int) (i : Svc) :
    (s.scheduleTick t held k i).sched =
      s.sched.set i (s.sched[i].tick i s.map[i] s.compliance.profiles t held).1.settled := by
  unfold State.scheduleTick
  rw [State.settleClosing_sched]
  simp

end Sys2Proof.Machine
end

section
/-!
The form that every step keeps in the schedule unit (O19): `ServiceSched.Move` lists what a command can make of one service, and
each part of the form is shown once for each move.
-/

namespace Sys2Proof.Machine

/-- What one command makes of one service of the schedule unit. -/
inductive ServiceSched.Move (x : ServiceSched) : ServiceSched → Prop where
  | configured (idle : x.state.configurable = true) : Move x { x with state := .ready }
  | started (ready : x.state = .ready) (time : Option Mi) : Move x (x.start time)
  | stopped (svc : Svc) (y : ServiceSched × List Instr) (stop : x.stop svc = some y) : Move x y.1
  | staged (d : Descriptor) (check : x.stageCheck d.id d.start = none) : Move x (x.addDescriptor d)
  | withdrawn (id : Nat) : Move x (x.withdraw id).1
  | ticked (t : Mi) (y : ServiceSched) (tick : x.Ticked t y) : Move x y.settled
  | recorded (state : Recording) (m : Mi) : Move x (x.takeRecordingState state m)
  | meterSummary (inst : Nat) (m : MeterSummary) : Move x (x.takeMeterSummary inst m).settled
  | captionSummary (inst : Nat) (m : CaptionSummary) : Move x (x.takeCaptionSummary inst m).settled
  | warm (time : Option Mi) : Move x (x.warmReset time)
  | power : Move x ServiceSched.powerOn

/-! ### Every command makes moves -/

/-- Every service is as it was, or has made a move. -/
def State.SchedMoves (s t : State) : Prop := ∀ i : Svc, t.sched[i] = s.sched[i] ∨ s.sched[i].Move t.sched[i]

namespace State.SchedMoves

variable {s t u : State}

theorem of_eq (h : t.sched = s.sched) : SchedMoves s t := fun i => .inl (by rw [h])

theorem congr_right (h : SchedMoves s t) (e : u.sched = t.sched) : SchedMoves s u := fun i => by
  rw [e]
  exact h i

theorem of_set {i : Svc} {y : ServiceSched} (h : s.sched[i].Move y) (e : t.sched = s.sched.set i y) : SchedMoves s t := by
  intro j
  rw [e]
  by_cases hj : j = i
  · subst hj
    exact .inr (by simpa using h)
  · have : (i : Nat) ≠ j := fun h => hj (Fin.ext h.symm)
    exact .inl (by simp [this])

theorem of_map {f : ServiceSched → ServiceSched} (h : ∀ x : ServiceSched, x.Move (f x)) (e : t.sched = mapVec f s.sched) :
    SchedMoves s t := by
  intro i
  have there : t.sched[i] = f s.sched[i] := by
    rw [e]
    exact mapVec_getElem f s.sched i i.isLt
  exact .inr (there ▸ h _)

end State.SchedMoves

theorem State.scheduleTick_map (s : State) (t : Mi) (held : Bool) (k : Int) (i : Svc) :
    (s.scheduleTick t held k i).map = s.map := by
  unfold State.scheduleTick
  rw [State.settleClosing_eq]
  split <;> simp

theorem State.settleClosing_profiles (s : State) (i : Svc) :
    (s.settleClosing i).compliance.profiles = s.compliance.profiles := by
  rw [State.settleClosing_eq]
  split
  · rfl
  · exact (Compliance.writeAll_keeps ..).1

theorem State.scheduleTick_profiles (s : State) (t : Mi) (held : Bool) (k : Int) (i : Svc) :
    (s.scheduleTick t held k i).compliance.profiles = s.compliance.profiles := by
  unfold State.scheduleTick
  rw [State.settleClosing_profiles]
  simp

/-- 2.4: what one service's own work at a tick leaves of it, its closing set settled. -/
def State.tickOf (t : Mi) (held : Bool) (s : State) (i : Svc) : ServiceSched :=
  (s.sched[i].tick i s.map[i] s.compliance.profiles t held).1.settled

theorem State.tickOf_scheduleTick {t : Mi} {held : Bool} {k : Int} {i j : Svc} (s : State) (h : j ≠ i) :
    (s.scheduleTick t held k i).tickOf t held j = s.tickOf t held j := by
  have ne : (i : Nat) ≠ j := fun e => h (Fin.ext e.symm)
  unfold State.tickOf
  rw [State.scheduleTick_map, State.scheduleTick_profiles, State.scheduleTick_sched]
  simp [ne]

/-- 2.4: the services' work at a tick does not depend on one another. -/
theorem State.foldl_scheduleTick_sched (s : State) (t : Mi) (held : Bool) (k : Int) (i : Svc) :
    (allSvcs.foldl (fun x i => x.scheduleTick t held k i) s).sched[i] = s.tickOf t held i := by
  rw [State.foldl_each State.sched (fun u i => u.scheduleTick_sched t held k i)
    (fun u i j h => u.tickOf_scheduleTick h) allSvcs_nodup, if_pos (mem_allSvcs i)]
  rfl

/-- R26: every member takes the descriptor once. -/
theorem State.foldl_addDescriptor_sched (d : Descriptor) {l : List Svc} (nodup : l.Nodup) (s : State) (i : Svc) :
    (l.foldl (fun x i => x.setSched i (x.sched[i].addDescriptor d)) s).sched[i] =
      if i ∈ l then s.sched[i].addDescriptor d else s.sched[i] := by
  refine State.foldl_each State.sched (g := fun u i => u.sched[i].addDescriptor d) (fun _ _ => rfl) (fun u i j h => ?_) nodup s i
  have ne : (i : Nat) ≠ j := fun e => h (Fin.ext e.symm)
  simp [ne]

theorem State.groupMembers_nodup (s : State) (g : Fin 4) : (s.groupMembers g).Nodup := allSvcs_nodup.filter _

/-- R26: at a member of a group no check fails, where none is found. -/
theorem State.stageCheck_of_groupFailure {s : State} {d : Descriptor} {l : List Svc} (h : s.groupFailure d l = none)
    {i : Svc} (hi : i ∈ l) : s.sched[i].stageCheck d.id d.start = none := by
  simpa using List.findSome?_eq_none_iff.mp h i hi

open State.SchedMoves in
/-- A command of the schedule unit makes moves. -/
theorem exec_schedule_moves {c : Instr} {s t : State} (hc : c.part = .schedule) (h : exec c s = .next t) : State.SchedMoves s t := by
  cases c <;> cases hc <;> obtain rfl := Host.Outcome.next.inj h
  case configureService rq svc args =>
    split
    · next i r _ _ =>
      split
      · next idle => exact of_set (i := i) (.configured idle) (by simp)
      · exact of_eq (by simp)
    · exact of_eq (by simp)
  case startService rq svc =>
    split
    · exact of_eq (by simp)
    · next i _ =>
      split
      · next ready => exact of_set (i := i) (.started ready.1 _) (by rw [State.respond_sched, State.send_sched]; rfl)
      · exact of_eq (by simp)
  case stopService rq svc =>
    split
    · exact of_eq (by simp)
    · next i _ =>
      split
      · exact of_eq (by simp)
      · next r stop => exact of_set (i := i) (.stopped i r stop) (by simp)
  case stage rq svc desc =>
    split
    · next i d _ _ =>
      split
      · exact of_eq (by simp)
      · next check => exact of_set (i := i) (.staged _ check) (by simp)
    · exact of_eq (by simp)
  case withdraw rq svc id =>
    split
    · exact of_eq (by simp)
    · next i _ =>
      split
      · exact of_eq (by simp)
      · exact of_set (i := i) (.withdrawn id) (by simp)
  case configureGroup rq group members =>
    split
    · exact of_eq (by simp)
    · split
      · exact of_eq (by simp)
      · exact of_eq (by simp)
  case groupStage rq group desc =>
    split
    · next g d _ _ =>
      split
      · exact of_eq (by simp)
      · dsimp only
        split
        · exact of_eq (by simp)
        · next pass =>
          intro i
          rw [State.respondOk_sched, State.foldl_addDescriptor_sched _ (State.groupMembers_nodup _ g)]
          split
          · next mem => exact .inr (.staged _ (State.stageCheck_of_groupFailure pass mem))
          · exact .inl rfl
    · exact of_eq (by simp)
  case scheduleMiTick m held =>
    intro i
    rw [State.foldl_scheduleTick_sched]
    exact .inr (.ticked m _ (ServiceSched.tick_fst ..))
  case recordingStateChanged i state m inst =>
    split
    · exact of_set (i := i) (.recorded state m) (by simp)
    · exact of_eq (by simp)
  case meterSummaryArrival i inst m => exact of_set (i := i) (.meterSummary inst m) (State.settleClosing_setSched_sched ..)
  case captionSummaryArrival i inst m => exact of_set (i := i) (.captionSummary inst m) (State.settleClosing_setSched_sched ..)

theorem State.warmed_sched (s : State) (rq : Req) (straps : Straps) :
    (s.warmed rq straps).sched = mapVec (fun x : ServiceSched => x.warmReset s.now) s.sched := by
  have scheduled (u : State) (e : u.sched = s.sched) (n : u.now = s.now) :
      u.warmSchedule.sched = mapVec (fun x : ServiceSched => x.warmReset s.now) s.sched := by
    unfold State.warmSchedule
    rw [State.complete_sched, State.complete_sched, ← n, ← e]
  have measured (u : State) : u.warmMeasures.sched = u.sched := rfl
  have strapped (u : State) : (u.warmPorts straps).sched = u.sched := rfl
  unfold State.warmed
  rw [strapped, (State.Frame.warmBank _).sched (by decide),
    (State.Frame.warmRecorder _).sched (by decide), measured]
  refine scheduled _ ?_ ?_
  · rw [(State.Frame.dropRunStarted .ports _).sched (by decide), (State.Frame.warmRouter _).sched (by decide),
      (State.Frame.passServed .ports _).sched (by decide)]
  · unfold State.now
    rw [(State.Frame.dropRunStarted .ports _).station (by decide), (State.Frame.warmRouter _).station (by decide),
      (State.Frame.passServed .ports _).station (by decide)]

/-- What a step can make of the services of the schedule unit. -/
theorem exec_moves {c : Instr} {s t : State} (h : exec c s = .next t) : State.SchedMoves s t := by
  by_cases reset : c.part = .reset
  · rcases reset_cases_of_part reset with ⟨straps, rfl⟩ | ⟨rq, straps, rfl⟩
    · obtain rfl := Host.Outcome.next.inj h
      intro i
      have power : State.reset.sched[i] = ServiceSched.powerOn := by simp [State.reset]
      exact .inr (power ▸ .power)
    · rw [State.exec_warmReset] at h
      obtain rfl := Host.Outcome.next.inj h
      exact .of_map (fun _ => .warm _) ((State.respond_sched ..).trans (s.warmed_sched rq straps))
  · by_cases schedule : c.part = .schedule
    · exact exec_schedule_moves schedule h
    · exact .of_eq ((exec_frame reset h).sched schedule)

/-- A condition on a service that every move keeps is kept by every step. -/
theorem step_keeps_sched {P : ServiceSched → Prop} (keeps : ∀ x y : ServiceSched, x.Move y → P x → P y) {s t : State}
    (good : ∀ i : Svc, P s.sched[i]) (h : step s = .next t) (i : Svc) : P t.sched[i] := by
  rcases step_cases h with rfl | ⟨c, u, run, same⟩
  · exact good i
  · have start : P u.sched[i] := by
      rw [same]
      exact good i
    rcases exec_moves run i with e | move
    · rwa [e]
    · exact keeps _ _ move start

/-! ### What each move keeps -/

/-- R33, R34: a change of a segment that touches its RECORDING_INCOMPLETE flag only. -/
def Segment.Flags (f : Segment → Segment) : Prop := ∀ g, f g = { g with incomplete := (f g).incomplete }

theorem Segment.flags_ite (p : Segment → Bool) : Segment.Flags fun g => if p g then { g with incomplete := true } else g := by
  intro g
  dsimp only
  split <;> rfl

theorem Segment.flags_markFrom (m : Mi) : Segment.Flags (Segment.markFrom m) := Segment.flags_ite _

theorem Segment.flags_markPeriod (m m' : Mi) : Segment.Flags (Segment.markPeriod m m') := Segment.flags_ite _

namespace ServiceSched

variable {x y : ServiceSched}

/-- R33, R34: a recording state message touches the view and the flags of segments. -/
theorem takeRecordingState_eq (x : ServiceSched) (state : Recording) (m : Mi) :
    ∃ v vf f g, Segment.Flags f ∧ Segment.Flags g ∧ x.takeRecordingState state m =
      { x with view := v, viewFrom := vf, openSeg := x.openSeg.map f, closing := x.closing.map g } := by
  have same : Segment.Flags id := fun _ => rfl
  cases state with
  | notRecording => exact ⟨_, _, _, _, fun _ => rfl, Segment.flags_markFrom m, rfl⟩
  | recording =>
    unfold takeRecordingState
    dsimp only
    split
    · exact ⟨_, _, _, _, Segment.flags_markPeriod _ m, Segment.flags_markPeriod _ m, rfl⟩
    · exact ⟨.recording, some m, id, id, same, same, by simp⟩
    · exact ⟨x.view, x.viewFrom, id, id, same, same, by simp⟩

/-! #### The staging queue (R21) -/

/-- A queue from which descriptors have gone keeps its form, beside an open segment of another id. -/
theorem GoodStaging.sublist (h : x.GoodStaging) (sub : y.staging.Sublist x.staging)
    (ids : ∀ d ∈ y.staging, y.openId ≠ some d.id) : y.GoodStaging := by
  obtain ⟨length, order, conflicts, _⟩ := h
  exact ⟨sub.length_le.trans length, order.sublist sub, conflicts.sublist sub, ids⟩

theorem GoodStaging.congr (h : x.GoodStaging) (staging : y.staging = x.staging) (openId : y.openId = x.openId) :
    y.GoodStaging := by
  refine h.sublist (staging ▸ List.Sublist.refl _) ?_
  rw [staging, openId]
  exact h.2.2.2

/-- R22: a descriptor that passes the checks joins the queue behind the others. -/
theorem GoodStaging.addDescriptor {d : Descriptor} (h : x.GoodStaging) (check : x.stageCheck d.id d.start = none) :
    (x.addDescriptor d).GoodStaging := by
  obtain ⟨length, order, conflicts, openIds⟩ := h
  obtain ⟨_, places, last, ids, openId⟩ := (stageCheck_eq_none_iff ..).mp check
  have above : ∀ e ∈ x.staging, e.start < d.start := by
    intro e he
    have ne := List.ne_nil_of_mem he
    have tail := last _ (List.getLast?_eq_getLast_of_ne_nil ne)
    rcases eq_or_ne e (x.staging.getLast ne) with rfl | other
    · exact tail
    · have front : e ∈ x.staging.dropLast := List.mem_dropLast_of_mem_of_ne_getLast he other
      rw [← List.dropLast_append_getLast ne] at order
      exact ((List.pairwise_append.mp order).2.2 e front _ List.mem_cons_self).trans tail
  refine ⟨?_, ?_, ?_, ?_⟩
  · simp only [ServiceSched.addDescriptor, List.length_append, List.length_singleton]
    omega
  · exact List.pairwise_append.mpr ⟨order, List.pairwise_singleton .., by simpa using above⟩
  · exact List.pairwise_append.mpr ⟨conflicts, List.pairwise_singleton .., by simpa using ids⟩
  · intro e he
    rcases List.mem_append.mp he with he | he
    · exact openIds e he
    · obtain rfl := List.mem_singleton.mp he
      exact openId

/-- R28: what is not due stays, and differs in its id from the descriptor that opens. -/
theorem GoodStaging.ticked {t : Mi} (h : x.GoodStaging) (tick : x.Ticked t y) : y.GoodStaging := by
  cases tick with
  | idle => exact h
  | marked held =>
    rw [markReference_eq]
    refine h.congr rfl ?_
    simp [ServiceSched.openId, Option.bind_map]
  | stopped gone closed => exact h.sublist (List.Sublist.refl _) (by simp [ServiceSched.openId])
  | opened n seg gone runInst acts closed ids =>
    refine h.sublist List.filter_sublist fun e he id => ?_
    obtain ⟨mem, later⟩ := List.mem_filter.mp he
    obtain ⟨d, hd, same, due⟩ := ids e.id id
    have distinct : (x.staging.map (·.id)).Nodup := List.pairwise_map.mpr h.2.2.1
    obtain rfl := List.inj_on_of_nodup_map distinct hd mem same
    exact absurd due (Nat.not_le.mpr (of_decide_eq_true later))

theorem withdraw_fst (x : ServiceSched) (id : Nat) :
    (x.withdraw id).1 = x ∨ (x.withdraw id).1 = { x with staging := x.staging.filter (·.id != id) } := by
  unfold withdraw
  split
  · exact .inr rfl
  · split <;> exact .inl rfl

/-- R18: a stop leaves a READY service or one whose stop is pending, with its queue empty. -/
theorem stop_cases {svc : Svc} {r : ServiceSched × List Instr} (h : x.stop svc = some r) :
    (x.state = .starting ∧ r.1 = { x with state := .ready, staging := [] }) ∨
    (x.state = .running ∧ (r.1 = x ∨ r.1 = { x with stopPending := true, staging := [] })) := by
  unfold stop at h
  cases hs : x.state <;> rw [hs] at h <;> simp only [Option.some.injEq, reduceCtorEq] at h
  · exact .inl ⟨rfl, by rw [← h]⟩
  · refine .inr ⟨rfl, ?_⟩
    rw [← h]
    split
    · exact .inl rfl
    · exact .inr rfl

theorem GoodStaging.move (move : x.Move y) (h : x.GoodStaging) : y.GoodStaging := by
  cases move with
  | configured | started | meterSummary | captionSummary => exact h.congr rfl rfl
  | stopped svc r stop =>
    rcases stop_cases stop with ⟨_, e⟩ | ⟨_, e | e⟩
    · exact e ▸ h.sublist (List.nil_sublist _) nofun
    · exact e ▸ h
    · exact e ▸ h.sublist (List.nil_sublist _) nofun
  | staged d check => exact h.addDescriptor check
  | withdrawn id =>
    rcases x.withdraw_fst id with e | e <;> rw [e]
    · exact h
    · exact h.sublist List.filter_sublist fun d hd => h.2.2.2 d (List.mem_of_mem_filter hd)
  | ticked t z tick => exact (h.ticked tick).congr rfl rfl
  | recorded state m =>
    obtain ⟨_, _, f, g, flags, _, e⟩ := x.takeRecordingState_eq state m
    rw [e]
    refine h.congr rfl ?_
    have id (s : Segment) : (f s).id = s.id := by rw [flags s]
    simp [ServiceSched.openId, Option.bind_map, id]
  | warm | power => exact ⟨Nat.zero_le 4, .nil, .nil, nofun⟩

/-! #### The state and the open segment (R16) -/

theorem GoodState.move (move : x.Move y) (h : x.GoodState) : y.GoodState := by
  obtain ⟨running, stopping, disabled⟩ := h
  cases move with
  | configured idle =>
    have : x.state ≠ .running := by
      rintro e
      rw [e] at idle
      cases idle
    have closed : x.openSeg.isSome = false := by simpa using this ∘ running.mpr
    exact ⟨by simp [closed], fun p => absurd (stopping p).1 this, nofun⟩
  | started ready =>
    have : x.state ≠ .running := by simp [ready]
    have closed : x.openSeg.isSome = false := by simpa using this ∘ running.mpr
    exact ⟨by simp [ServiceSched.start, closed], fun p => absurd (stopping p).1 this, nofun⟩
  | stopped svc r stop =>
    rcases stop_cases stop with ⟨hs, e⟩ | ⟨hs, e | e⟩ <;> rw [e]
    · have : x.state ≠ .running := by simp [hs]
      have closed : x.openSeg.isSome = false := by simpa using this ∘ running.mpr
      exact ⟨by simp [closed], fun p => absurd (stopping p).1 this, nofun⟩
    · exact ⟨running, stopping, disabled⟩
    · exact ⟨running, fun _ => ⟨hs, rfl⟩, fun _ => rfl⟩
  | staged d check =>
    have opened := ((stageCheck_eq_none_iff ..).mp check).1
    rw [← Bool.not_eq_true, closedToStaging_iff, not_or] at opened
    exact ⟨running, fun p => absurd ⟨(stopping p).1, p⟩ opened.2, fun p => absurd p opened.1⟩
  | withdrawn id =>
    rcases x.withdraw_fst id with e | e <;> rw [e]
    · exact ⟨running, stopping, disabled⟩
    · exact ⟨running, fun p => ⟨(stopping p).1, by simp [(stopping p).2]⟩, fun p => by simp [disabled p]⟩
  | ticked t z tick =>
    cases tick with
    | idle => exact ⟨running, stopping, disabled⟩
    | marked held =>
      rw [markReference_eq]
      exact ⟨by simpa [settled] using running, stopping, disabled⟩
    | stopped gone closed => exact ⟨by simp [settled], nofun, nofun⟩
    | opened n seg gone runInst acts closed ids =>
      refine ⟨by simp [settled], fun p => ?_, nofun⟩
      rcases acts with starting | ⟨_, going⟩
      · exact absurd ((stopping p).1.symm.trans starting) (by decide)
      · exact absurd (p.symm.trans going) (by decide)
  | recorded state m =>
    obtain ⟨_, _, f, g, _, _, e⟩ := x.takeRecordingState_eq state m
    rw [e]
    exact ⟨by simpa using running, stopping, disabled⟩
  | meterSummary | captionSummary => exact ⟨running, stopping, disabled⟩
  | warm time =>
    refine ⟨?_, nofun, fun _ => rfl⟩
    simp only [ServiceSched.warmReset, Option.isSome_none, Bool.false_eq_true, iff_false]
    split <;> decide
  | power => exact ⟨by decide, by decide, by decide⟩

/-! #### The closing set (R31, R32) -/

/-- R32: the head of a settled closing set still waits for a summary. -/
theorem goodClosing_settled (h : ∀ g ∈ x.closing, g.Closed) : x.settled.GoodClosing := by
  refine ⟨fun g hg => h g (List.dropWhile_subset _ hg), fun g hg => ?_⟩
  have stays : g.complete = false := by
    have := List.head?_dropWhile_not Segment.complete x.closing
    rw [show (x.closing.dropWhile Segment.complete).head? = some g from hg] at this
    exact this
  rw [Segment.complete_eq, Bool.or_eq_false_iff, Bool.and_eq_false_iff] at stays
  simpa using stays

theorem goodClosing_nil (e : y.closing = []) : y.GoodClosing := by
  unfold GoodClosing
  simp [e]

theorem GoodClosing.congr (h : x.GoodClosing) (e : y.closing = x.closing) : y.GoodClosing := by
  unfold GoodClosing
  rw [e]
  exact h

theorem GoodClosing.move (move : x.Move y) (h : x.GoodClosing) : y.GoodClosing := by
  cases move with
  | configured | started | staged => exact h.congr rfl
  | stopped svc r stop =>
    rcases stop_cases stop with ⟨_, e⟩ | ⟨_, e | e⟩ <;> exact e ▸ h.congr rfl
  | withdrawn id =>
    rcases x.withdraw_fst id with e | e <;> rw [e] <;> exact h.congr rfl
  | ticked t z tick =>
    apply goodClosing_settled
    cases tick with
    | idle => exact h.1
    | marked held =>
      rw [markReference_eq]
      exact h.1
    | stopped gone closed => exact List.forall_mem_append.mpr ⟨h.1, closed⟩
    | opened n seg gone runInst acts closed ids => exact List.forall_mem_append.mpr ⟨h.1, closed⟩
  | recorded state m =>
    obtain ⟨_, _, f, g, _, flags, e⟩ := x.takeRecordingState_eq state m
    rw [e]
    refine ⟨fun s hs => ?_, fun s hs => ?_⟩
    · obtain ⟨s₀, mem, rfl⟩ := List.mem_map.mp hs
      rw [flags s₀]
      exact h.1 s₀ mem
    · rw [List.head?_map, Option.map_eq_some_iff] at hs
      obtain ⟨s₀, head, rfl⟩ := hs
      rw [flags s₀]
      exact h.2 s₀ head
  | meterSummary inst m | captionSummary inst m =>
    refine goodClosing_settled fun g hg => ?_
    obtain ⟨g₀, mem, rfl⟩ := List.mem_map.mp hg
    split <;> exact h.1 g₀ mem
  | warm time => exact goodClosing_nil rfl
  | power => exact goodClosing_nil rfl

end ServiceSched

/-- Settles O19: each of the three forms is kept by every move of a service. -/
theorem everyStepKeepsTheSchedule : Obligations.EveryStepKeepsTheSchedule := by
  unfold Obligations.EveryStepKeepsTheSchedule
  exact ⟨fun _ _ good h => step_keeps_sched (fun _ _ => ServiceSched.GoodStaging.move) good h,
    fun _ _ good h => step_keeps_sched (fun _ _ => ServiceSched.GoodState.move) good h,
    fun _ _ good h => step_keeps_sched (fun _ _ => ServiceSched.GoodClosing.move) good h⟩

end Sys2Proof.Machine
end

section
/-!
The form that every step keeps in station time, the ports, the notice queues and the counter bank (O54).
-/

namespace Sys2Proof.Machine

/-- A condition that does not look at the queue of commands, and that every command keeps, is kept by every step. -/
theorem step_keeps {P : State → Prop} (pending : ∀ (s : State) l, P s → P { s with pending := l })
    (keeps : ∀ {c s t}, exec c s = .next t → P s → P t) {s t : State} (h : step s = .next t) (good : P s) : P t := by
  rcases step_cases h with rfl | ⟨c, u, run, same⟩
  · exact good
  · refine keeps run ?_
    rw [same]
    exact pending s _ good

/-- A command stays in the frame of its block, or is one of the two resets. -/
theorem exec_cases {c : Instr} {s t : State} (h : exec c s = .next t) :
    (c.part ≠ .reset ∧ State.Frame c.part s t) ∨
    (∃ straps, t = { State.reset with
      ports := Vector.ofFn fun p => Port.afterPower straps p s.ports[p].passes, pending := s.pending }) ∨
    ∃ rq straps, t = (s.warmed rq straps).respond rq .ok .nothing := by
  by_cases reset : c.part = .reset
  · rcases reset_cases_of_part reset with ⟨straps, rfl⟩ | ⟨rq, straps, rfl⟩
    · exact .inr (.inl ⟨straps, (Host.Outcome.next.inj h).symm⟩)
    · rw [State.exec_warmReset] at h
      exact .inr (.inr ⟨rq, straps, (Host.Outcome.next.inj h).symm⟩)
  · exact .inl ⟨reset, exec_frame reset h⟩

/-! ### Station time (R1, R3, R4) -/

theorem miNext_lt (m : Mi) : miNext m < 2 ^ 40 := Nat.mod_lt _ (by decide)

theorem Station.good_edge (x : Station) {kind : EdgeKind} {instant : Nat} {ref : RefState}
    (h : ref = .locked ↔ kind = .reference) : (x.edge kind instant ref).Good := by
  refine ⟨fun m hm => ?_, h⟩
  obtain ⟨n, _, rfl⟩ := Option.map_eq_some_iff.mp hm
  exact miNext_lt n

theorem exec_station_good {c : Instr} {s t : State} (hc : c.part = .station) (h : exec c s = .next t)
    (good : s.station.Good) : t.station.Good := by
  cases c <;> cases hc <;> obtain rfl := Host.Outcome.next.inj h
  case referenceEdge =>
    split
    · exact Station.good_edge _ (by decide)
    · exact Station.good_edge _ (by decide)
  case referenceWatchExpiry =>
    split
    · exact Station.good_edge _ (by decide)
    · exact good
  case oscillatorEdge =>
    split
    · exact good
    · exact Station.good_edge _ (by decide)
  case setTime rq mi =>
    split
    · rwa [State.refuse_station]
    · rw [State.respond_station]
      refine ⟨fun m hm => ?_, good.2⟩
      obtain rfl := Option.some.inj hm
      exact Nat.mod_lt _ (by decide)

theorem State.warmed_station (s : State) (rq : Req) (straps : Straps) : (s.warmed rq straps).station = s.station :=
  s.warmed_keeps State.station (fun _ _ => rfl) (fun u => (Frame.passServed .ports u).station (by decide)) (fun _ => rfl)
    (fun u => (Frame.warmSchedule u).station (by decide)) (fun _ => rfl) (fun u => (Frame.warmRecorder u).station (by decide))
    (fun u => (Frame.warmBank u).station (by decide)) (fun _ _ => rfl) rq straps

theorem exec_keeps_station {c : Instr} {s t : State} (h : exec c s = .next t) (good : s.station.Good) : t.station.Good := by
  rcases exec_cases h with ⟨reset, frame⟩ | ⟨straps, rfl⟩ | ⟨rq, straps, rfl⟩
  · by_cases station : c.part = .station
    · exact exec_station_good station h good
    · rwa [frame.station station]
  · exact ⟨nofun, (by decide : Station.powerOn.ref = .locked ↔ Station.powerOn.kind = .reference)⟩
  · rwa [State.respond_station, State.warmed_station]

/-! ### The ports (R170, R171, R173, R174, R178) -/

namespace Port

variable {x y : Port}

theorem Move.strap_role (h : x.Move y) : y.strap = x.strap ∧ y.role = x.role := by
  cases h with
  | said | answered | failed | passed | lost | dropped => exact ⟨rfl, rfl⟩
  | aligned | started =>
    simp only [linkAligned, startFrame]
    split <;> exact ⟨rfl, rfl⟩
  | data b =>
    unfold dataByte
    split
    · split <;> exact ⟨rfl, rfl⟩
    · exact ⟨rfl, rfl⟩
  | taken q =>
    unfold takeRequest
    split <;> exact ⟨rfl, rfl⟩

theorem Moves.strap_role (h : x.Moves y) : y.strap = x.strap ∧ y.role = x.role := by
  induction h with
  | refl => exact ⟨rfl, rfl⟩
  | tail _ move ih => exact ⟨move.strap_role.1.trans ih.1, move.strap_role.2.trans ih.2⟩

/-- What stays of a queue in LINK_DOWN: the request that has been passed to its block, under its pass. -/
theorem Good.keepServed (h : x.Good) : x.keepServed.Good := by
  obtain ⟨places, down, served, frame⟩ := h
  unfold Port.keepServed
  by_cases serving : x.serving.isSome
  · simp only [serving, if_true]
    refine ⟨?_, fun hl => ⟨(down hl).1, ?_, fun _ => serving⟩, fun _ => ?_, frame⟩
    · exact (List.length_take_le 1 _).trans (by decide)
    · exact List.length_take_le 1 _
    · simpa using served serving
  · simp only [serving]
    exact ⟨Nat.zero_le _, fun hl => ⟨(down hl).1, Nat.zero_le _, fun ne => absurd rfl ne⟩, fun h => absurd h serving, frame⟩

theorem Good.move (h : x.Good) (move : x.Move y) : y.Good := by
  have same := h
  obtain ⟨places, down, served, frame⟩ := h
  have tail : x.queue.tail.length ≤ 4 := by
    rw [List.length_tail]
    omega
  have emptied (hl : x.link = .down) : x.queue.tail = [] := by
    rw [← List.length_eq_zero_iff, List.length_tail]
    have := (down hl).2.1
    omega
  cases move with
  | said r => exact same
  | answered r => exact ⟨tail, fun hl => ⟨(down hl).1, by simp [emptied hl], by simp [emptied hl]⟩, nofun, frame⟩
  | failed r fresh =>
    exact ⟨tail, fun hl => ⟨(down hl).1, by simp [emptied hl], by simp [emptied hl]⟩, by simp [fresh], frame⟩
  | passed k fresh queued => exact ⟨places, fun hl => ⟨(down hl).1, (down hl).2.1, fun _ => rfl⟩, fun _ => queued, frame⟩
  | lost =>
    obtain ⟨places, _, served, _⟩ := same.keepServed
    refine ⟨places, fun _ => ⟨rfl, ?_, ?_⟩, served, nofun⟩
    · simp only [linkLost, Port.keepServed]
      split
      · exact List.length_take_le 1 _
      · exact Nat.zero_le 1
    · simp only [linkLost, Port.keepServed]
      split
      · next serving => exact fun _ => serving
      · exact fun ne => absurd rfl ne
  | aligned =>
    unfold linkAligned
    split
    · exact same
    · exact ⟨Nat.zero_le _, nofun, nofun, frame⟩
  | started =>
    unfold startFrame
    split
    · exact same
    · next up =>
      refine ⟨places, fun hl => absurd (up.symm.trans hl) (by decide), served, fun l hl => ?_⟩
      obtain rfl := Option.some.inj hl
      exact Nat.zero_le _
  | data b =>
    unfold dataByte
    split
    · next l up rx =>
      have linked : x.link ≠ .down := by simp [up]
      split
      · exact ⟨places, fun hl => absurd hl linked, served, nofun⟩
      · next short =>
        refine ⟨places, fun hl => absurd hl linked, served, fun l' hl => ?_⟩
        obtain rfl := Option.some.inj hl
        rw [List.length_append, List.length_singleton]
        exact Nat.lt_of_not_le short
    · exact same
  | dropped => exact ⟨places, fun hl => ⟨rfl, (down hl).2⟩, served, nofun⟩
  | taken q up =>
    have linked : x.link ≠ .down := by simp [up]
    unfold takeRequest
    split
    · exact ⟨places, fun hl => absurd hl linked, served, nofun⟩
    · next room =>
      refine ⟨?_, fun hl => absurd hl linked, fun _ => by simp, nofun⟩
      rw [List.length_append, List.length_singleton]
      exact Nat.lt_of_not_le room

theorem Good.moves (h : x.Good) (moves : x.Moves y) : y.Good := by
  induction moves with
  | refl => exact h
  | tail _ move ih => exact ih.move move

end Port

/-- The state before a warm reset reads the straps. -/
theorem State.warmed_ports (s : State) (rq : Req) (straps : Straps) :
    ∃ v : Vector Port 3, (∀ p : PortNo, s.ports[p].Moves v[p]) ∧ (s.warmed rq straps).ports =
      Vector.ofFn fun p : PortNo =>
        { v[p].keepServed with strap := (rolesOf straps)[p], role := roleHeld (rolesOf straps) p } := by
  refine ⟨_, fun p => ?_, rfl⟩
  have measured (u : State) : u.warmMeasures.ports = u.ports := rfl
  refine .trans ?_ ((Frame.warmBank _).ports p)
  refine .trans ?_ ((Frame.warmRecorder _).ports p)
  rw [measured]
  refine .trans ?_ ((Frame.warmSchedule _).ports p)
  refine .trans ?_ ((Frame.dropRunStarted .ports _).ports p)
  refine .trans ?_ ((Frame.warmRouter _).ports p)
  exact ((Frame.of_inFlight (s := s) .ports rfl).trans (Frame.passServed .ports _)).ports p

theorem State.respond_ports_moves (s : State) (rq : Req) (st : Status) (a : Answer) (p : PortNo) :
    s.ports[p].Moves (s.respond rq st a).ports[p] := ((Frame.refl .ports s).respond rq st a).ports p

theorem exec_keeps_ports {c : Instr} {s t : State} (h : exec c s = .next t) (good : ∀ p : PortNo, s.ports[p].Good)
    (p : PortNo) : t.ports[p].Good := by
  rcases exec_cases h with ⟨_, frame⟩ | ⟨straps, rfl⟩ | ⟨rq, straps, rfl⟩
  · exact (good p).moves (frame.ports p)
  · simp [Port.afterPower, Port.powerOn, Port.Good]
  · refine Port.Good.moves ?_ (State.respond_ports_moves _ rq .ok .nothing p)
    obtain ⟨v, moves, e⟩ := s.warmed_ports rq straps
    rw [e]
    simpa [Port.Good] using ((good p).moves (moves p)).keepServed

/-! ### Roles (R175) -/

/-- Ports that hold the roles of a strapping, with their straps as it reads them. -/
theorem State.goodRoles_of_strapping {s : State} {r : Vector Role 3}
    (h : ∀ p : PortNo, s.ports[p].strap = r[p] ∧ s.ports[p].role = roleHeld r p) : s.GoodRoles := by
  have read : s.strapped = r := by
    ext p hp
    have := (h ⟨p, hp⟩).1
    match p, hp with
    | 0, _ | 1, _ | 2, _ => exact this
  intro p
  rw [read]
  exact (h p).2

theorem State.GoodRoles.moves {s t : State} (h : s.GoodRoles) (moves : ∀ p : PortNo, s.ports[p].Moves t.ports[p]) :
    t.GoodRoles := by
  refine State.goodRoles_of_strapping (r := s.strapped) fun p => ⟨?_, ?_⟩
  · rw [(moves p).strap_role.1]
    match p with
    | 0 | 1 | 2 => rfl
  · rw [(moves p).strap_role.2]
    exact h p

theorem exec_keeps_roles {c : Instr} {s t : State} (h : exec c s = .next t) (good : s.GoodRoles) : t.GoodRoles := by
  rcases exec_cases h with ⟨_, frame⟩ | ⟨straps, rfl⟩ | ⟨rq, straps, rfl⟩
  · exact good.moves frame.ports
  · refine State.goodRoles_of_strapping (r := rolesOf straps) fun p => ?_
    simp [Port.afterPower, Port.powerOn]
  · refine State.GoodRoles.moves ?_ (State.respond_ports_moves _ rq .ok .nothing)
    obtain ⟨v, _, e⟩ := s.warmed_ports rq straps
    refine State.goodRoles_of_strapping (r := rolesOf straps) fun p => ?_
    rw [e]
    simp

/-! ### The notice queues (R185, R186) -/

namespace PortNotices

variable {x : PortNotices}

theorem lineLevel_iff (mode : AttentionMode) (queue : List NoticeRecord) :
    lineLevel mode queue = true ↔ mode = .level ∧ queue ≠ [] := by
  cases mode <;> simp [lineLevel]

theorem Good.enqueue (h : x.Good) (n : Notice) : (x.enqueue n).Good := by
  obtain ⟨length, owed, level, line, dropped, before⟩ := h
  unfold PortNotices.enqueue
  split
  · exact ⟨length, owed, level, line, Nat.min_le_left .., before⟩
  · next room =>
    refine ⟨?_, ?_, ?_, lineLevel_iff .., Nat.zero_le _, ?_⟩
    · rw [List.length_append, List.length_singleton]
      exact Nat.lt_of_not_le room
    · cases hm : x.mode
      · exact owed
      · exact Nat.min_le_left ..
    · intro hm
      dsimp only at hm ⊢
      rw [hm]
      exact level hm
    · exact List.forall_mem_append.mpr ⟨before, by simpa using dropped⟩

theorem Good.pop (h : x.Good) : x.pop.Good := by
  obtain ⟨length, owed, level, line, dropped, before⟩ := h
  refine ⟨?_, owed, level, lineLevel_iff .., dropped, fun r hr => before r (List.mem_of_mem_tail hr)⟩
  rw [PortNotices.pop, List.length_tail]
  omega

theorem Good.setMode (h : x.Good) (mode : AttentionMode) : (x.setMode mode).Good := by
  unfold PortNotices.setMode
  split
  · exact h
  · obtain ⟨length, owed, level, line, dropped, before⟩ := h
    refine ⟨length, ?_, ?_, lineLevel_iff .., dropped, before⟩
    · cases mode
      · exact Nat.zero_le _
      · exact owed
    · rintro rfl
      rfl

theorem Good.pulse (h : x.Good) : x.pulse.Good := by
  unfold PortNotices.pulse
  split
  · next owes =>
    obtain ⟨length, owed, level, line, dropped, before⟩ := h
    refine ⟨length, (Nat.sub_le ..).trans owed, fun hm => ?_, line, dropped, before⟩
    exact absurd (hm.symm.trans owes.1) (by decide)
  · exact h

theorem good_warmReset (x : PortNotices) : x.warmReset.Good :=
  ⟨Nat.zero_le _, Nat.zero_le _, fun _ => rfl, by simp [PortNotices.warmReset], Nat.zero_le _, nofun⟩

end PortNotices

/-- One port's part of the router replaced by a good one. -/
theorem State.setNotices_good {s : State} (good : ∀ p : PortNo, s.router.ports[p].Good) {p : PortNo} {x : PortNotices}
    (h : x.Good) (q : PortNo) : (s.setNotices p x).router.ports[q].Good := by
  by_cases e : q = p
  · subst e
    simpa [State.setNotices] using h
  · have ne : (p : Nat) ≠ q := fun h => e (Fin.ext h.symm)
    simpa [State.setNotices, ne] using good q

theorem Router.take_ports (x : Router) (n : Notice) (p : PortNo) :
    (x.take n).ports[p] = if x.targets n p then x.ports[p].enqueue n else x.ports[p] := by
  simp [Router.take]

theorem exec_router_good {c : Instr} {s t : State} (hc : c.part = .router) (h : exec c s = .next t)
    (good : ∀ p : PortNo, s.router.ports[p].Good) (p : PortNo) : t.router.ports[p].Good := by
  have same {u v : State} (e : v.router = u.router) (gu : u.router.ports[p].Good) : v.router.ports[p].Good := by rwa [e]
  cases c <;> cases hc <;> obtain rfl := Host.Outcome.next.inj h
  case noticeArrival n =>
    show (s.router.take n).ports[p].Good
    rw [Router.take_ports]
    split
    · exact (good p).enqueue n
    · exact good p
  case attentionPulse q => exact State.setNotices_good good (good q).pulse p
  case setRoute =>
    split
    · exact same (State.respond_router ..) (good p)
    · exact same (State.refuse_router ..) (good p)
  case setAttentionMode =>
    split
    · next q m _ _ => exact same (State.respond_router ..) (State.setNotices_good good ((good q).setMode m) p)
    · exact same (State.refuse_router ..) (good p)
  case readNotice rq =>
    split
    · exact same (State.refuse_router ..) (good p)
    · exact same (State.respond_router ..) (State.setNotices_good good (good rq.port).pop p)

theorem State.warmed_router (s : State) (rq : Req) (straps : Straps) :
    (s.warmed rq straps).router = { s.router with ports := mapVec PortNotices.warmReset s.router.ports } := by
  have measured (u : State) : u.warmMeasures.router = u.router := rfl
  have strapped (u : State) : (u.warmPorts straps).router = u.router := rfl
  have routed (u : State) : u.warmRouter.router = { u.router with ports := mapVec PortNotices.warmReset u.router.ports } := rfl
  unfold State.warmed
  rw [strapped, (Frame.warmBank _).router (by decide), (Frame.warmRecorder _).router (by decide), measured,
    (Frame.warmSchedule _).router (by decide), (Frame.dropRunStarted .ports _).router (by decide), routed,
    (Frame.passServed .ports _).router (by decide)]

theorem exec_keeps_router {c : Instr} {s t : State} (h : exec c s = .next t) (good : ∀ p : PortNo, s.router.ports[p].Good)
    (p : PortNo) : t.router.ports[p].Good := by
  rcases exec_cases h with ⟨_, frame⟩ | ⟨straps, rfl⟩ | ⟨rq, straps, rfl⟩
  · by_cases router : c.part = .router
    · exact exec_router_good router h good p
    · rw [frame.router router]
      exact good p
  · simp [State.reset, PortNotices.powerOn, PortNotices.Good]
  · rw [State.respond_router, State.warmed_router]
    simpa using PortNotices.good_warmReset _

/-! ### The counter bank (R187 to R189) -/

namespace CounterCell

variable {c : CounterCell}

theorem good_zero : CounterCell.zero.Good := by
  simp [CounterCell.zero, CounterCell.Good]

theorem Good.bump (h : c.Good) : c.bump.Good := by
  unfold CounterCell.bump max32
  split
  · exact h
  · next below =>
    obtain ⟨value, half, full, seenHalf, seenFull⟩ := h
    refine ⟨by dsimp only; omega, ?_, ?_, ?_, ?_⟩
    · simp only [Bool.or_eq_true, beq_iff_eq]
      rintro (h | h)
      · have := half h
        omega
      · omega
    · simp only [Bool.or_eq_true, beq_iff_eq]
      rintro (h | h)
      · have := full h
        omega
      · exact h
    · dsimp only
      split
      · exact fun h => absurd rfl h
      · exact fun h => by simp [seenHalf h]
    · dsimp only
      split
      · exact fun h => absurd rfl h
      · exact fun h => by simp [seenFull h]

theorem Good.seenBy (h : c.Good) (p : PortNo) : (c.seenBy p).Good := by
  obtain ⟨value, half, full, seenHalf, seenFull⟩ := h
  refine ⟨value, half, full, ?_, ?_⟩
  · simp only [CounterCell.seenBy]
    split
    · next set => exact fun _ => set
    · exact seenHalf
  · simp only [CounterCell.seenBy]
    split
    · next set => exact fun _ => set
    · exact seenFull

theorem Good.clearedBy (h : c.Good) (p : PortNo) : (c.clearedBy p).Good := by
  obtain ⟨value, half, full, seenHalf, seenFull⟩ := h
  refine ⟨value, fun h => half ?_, fun h => full ?_, ?_, ?_⟩
  · exact (Bool.and_eq_true_iff.mp h).1
  · exact (Bool.and_eq_true_iff.mp h).1
  · simp only [CounterCell.clearedBy]
    split
    · exact fun h => absurd rfl h
    · next kept => exact fun h => by simpa [seenHalf h] using kept
  · simp only [CounterCell.clearedBy]
    split
    · exact fun h => absurd rfl h
    · next kept => exact fun h => by simpa [seenFull h] using kept

end CounterCell

namespace Bank

variable {x : Bank}

theorem Good.cell (h : x.Good) (c : Counter) : (x.cell c).Good := by
  cases c with
  | service k s => exact h.1 s (svcCounterKind k)
  | archiveTimeouts | logRecordsLost | framesDiscarded => exact h.2 _

/-- A place of a vector replaced keeps what holds of every place. -/
theorem forall_getElem_set {α : Type} {n : Nat} {P : α → Prop} {v : Vector α n} (h : ∀ k : Fin n, P v[k]) (i : Fin n) {a : α}
    (ha : P a) (k : Fin n) : P (v.set i a)[k] := by
  by_cases e : k = i
  · subst e
    simpa using ha
  · have ne : (i : Nat) ≠ k := fun h => e (Fin.ext h.symm)
    simpa [ne] using h k

theorem Good.setCell (h : x.Good) (c : Counter) {v : CounterCell} (hv : v.Good) : (x.setCell c v).Good := by
  cases c with
  | service k s =>
    exact ⟨forall_getElem_set (P := fun w : Vector CounterCell 12 => ∀ k : Fin 12, w[k].Good) h.1 s
      (forall_getElem_set (P := CounterCell.Good) (h.1 s) _ hv), h.2⟩
  | archiveTimeouts | logRecordsLost | framesDiscarded => exact ⟨h.1, forall_getElem_set (P := CounterCell.Good) h.2 _ hv⟩

theorem Good.change (h : x.Good) {f : CounterCell → CounterCell} (hf : ∀ c : CounterCell, c.Good → (f c).Good)
    (sel : Selection) : (x.change f sel).Good := by
  cases sel with
  | service i =>
    refine ⟨forall_getElem_set (P := fun w : Vector CounterCell 12 => ∀ k : Fin 12, w[k].Good) h.1 i fun k => ?_, h.2⟩
    simpa using hf _ (h.1 i k)
  | part =>
    refine ⟨h.1, fun k => ?_⟩
    simpa [Bank.change] using hf _ (h.2 k)

theorem good_zeroed (x : Bank) : x.zeroed.Good := by
  constructor
  · intro i k
    simpa [Bank.zeroed, Bank.powerOn] using CounterCell.good_zero
  · intro k
    simpa [Bank.zeroed, Bank.powerOn] using CounterCell.good_zero

end Bank

theorem exec_bank_good {c : Instr} {s t : State} (hc : c.part = .bank) (h : exec c s = .next t) (good : s.bank.Good) :
    t.bank.Good := by
  cases c <;> cases hc <;> obtain rfl := Host.Outcome.next.inj h
  case counterIncrement counter => exact Bank.Good.setCell good counter (good.cell counter).bump
  case setAlertMask =>
    rw [State.respondOk_bank]
    exact good
  case readCounters rq _ =>
    split
    · rwa [State.refuse_bank]
    · rw [State.respond_bank]
      exact good.change (fun _ h => h.seenBy rq.port) _
  case clearAlerts rq _ =>
    split
    · rwa [State.refuse_bank]
    · rw [State.respond_bank]
      exact good.change (fun _ h => h.clearedBy rq.port) _
  case clearCounters =>
    split
    · rwa [State.refuse_bank]
    · rw [State.respond_bank]
      exact good.change (fun _ _ => CounterCell.good_zero) _

theorem State.warmed_bank_good (s : State) (rq : Req) (straps : Straps) : (s.warmed rq straps).bank.Good := Bank.good_zeroed _

theorem exec_keeps_bank {c : Instr} {s t : State} (h : exec c s = .next t) (good : s.bank.Good) : t.bank.Good := by
  rcases exec_cases h with ⟨_, frame⟩ | ⟨straps, rfl⟩ | ⟨rq, straps, rfl⟩
  · by_cases bank : c.part = .bank
    · exact exec_bank_good bank h good
    · rwa [frame.bank bank]
  · exact Bank.good_zeroed Bank.powerOn
  · rw [State.respond_bank]
    exact s.warmed_bank_good rq straps

/-- Settles O54: block by block, what each command of the block, each reset and each response keeps. -/
theorem everyStepKeepsPortsRouterAndBank : Obligations.EveryStepKeepsPortsRouterAndBank := by
  unfold Obligations.EveryStepKeepsPortsRouterAndBank
  exact fun s t h =>
    ⟨step_keeps (P := fun s => s.station.Good) (fun _ _ h => h) exec_keeps_station h,
      step_keeps (P := State.GoodRoles) (fun _ _ h => h) exec_keeps_roles h,
      step_keeps (P := fun s => ∀ p : PortNo, s.ports[p].Good) (fun _ _ h => h) exec_keeps_ports h,
      step_keeps (P := fun s => ∀ p : PortNo, s.router.ports[p].Good) (fun _ _ h => h) exec_keeps_router h,
      step_keeps (P := fun s => s.bank.Good) (fun _ _ h => h) exec_keeps_bank h⟩

end Sys2Proof.Machine
end

section
/-!
The form that every step keeps in the compliance log, the profiles and the settings of the store (O38).
-/

namespace Sys2Proof.Machine

/-! ### The log (R100, R113 to R115) -/

namespace Compliance

variable {x : Compliance}

/-- R113 to R115: the log holds the last 4096 records written, in consecutive sequence. -/
def GoodLog (x : Compliance) : Prop :=
  x.log.length = min 4096 x.lastWritten ∧ x.lastWritten ≤ 2 ^ 48 - 1 ∧
  (∀ k, ∀ h : k < x.log.length, (x.log[k]).seq + x.log.length = x.lastWritten + k + 1) ∧
  x.mark ≤ x.lastWritten ∧ x.loss = 0

/-- The form of the unit, whatever waits. -/
def Ordered (x : Compliance) : Prop := { x with waiting := [] }.Good

theorem ordered_iff (x : Compliance) :
    x.Ordered ↔ x.GoodLog ∧ (x.writing = none → x.nextSeq = min (2 ^ 48 - 1) (x.lastWritten + 1)) ∧
      ∀ r, x.writing = some r → r.seq = x.lastWritten + 1 ∧ r.seq ≤ 2 ^ 48 - 1 ∧ x.nextSeq = min (2 ^ 48 - 1) (r.seq + 1) := by
  constructor
  · rintro ⟨length, last, seqs, idle, busy, mark, loss⟩
    exact ⟨⟨length, last, seqs, mark, loss⟩, fun h => (idle h).1, busy⟩
  · rintro ⟨⟨length, last, seqs, mark, loss⟩, idle, busy⟩
    exact ⟨length, last, seqs, fun h => ⟨idle h, rfl⟩, busy, mark, loss⟩

theorem good_iff (x : Compliance) : x.Good ↔ x.Ordered ∧ (x.writing = none → x.waiting = []) := by
  constructor
  · rintro ⟨length, last, seqs, idle, busy, mark, loss⟩
    exact ⟨⟨length, last, seqs, fun h => ⟨(idle h).1, rfl⟩, busy, mark, loss⟩, fun h => (idle h).2⟩
  · rintro ⟨⟨length, last, seqs, idle, busy, mark, loss⟩, waits⟩
    exact ⟨length, last, seqs, fun h => ⟨(idle h).1, waits h⟩, busy, mark, loss⟩

theorem lastWritten_append (y : Compliance) {l : List Record} {r : Record} (h : y.log = l ++ [r]) : y.lastWritten = r.seq := by
  rw [lastWritten, h, List.getLast?_concat]

/-- A record put behind records of consecutive sequence, the last of which is the one before its own. -/
theorem consecutive_append {l : List Record} {r : Record} (seqs : ∀ k, ∀ h : k < l.length, (l[k]).seq + l.length = r.seq + k)
    (k : Nat) (h : k < (l ++ [r]).length) : ((l ++ [r])[k]).seq + (l ++ [r]).length = r.seq + k + 1 := by
  rw [List.length_append, List.length_singleton] at h ⊢
  rcases Nat.lt_or_ge k l.length with inside | atEnd
  · rw [List.getElem_append_left inside]
    have := seqs k inside
    omega
  · obtain rfl : k = l.length := by omega
    rw [List.getElem_concat_length rfl]
    omega

/-- Step 6 of R100: a record stored behind a log of fewer than 4096. -/
theorem GoodLog.append (h : x.GoodLog) {y : Compliance} {r : Record} (short : x.log.length < 4096)
    (seq : r.seq = x.lastWritten + 1) (top : r.seq ≤ 2 ^ 48 - 1) (log : y.log = x.log ++ [r]) (mark : y.mark = x.mark)
    (loss : y.loss = 0) : y.GoodLog := by
  obtain ⟨length, last, seqs, markLe, _⟩ := h
  have newLength : y.log.length = x.log.length + 1 := by rw [log, List.length_append, List.length_singleton]
  have before : ∀ k, ∀ h : k < x.log.length, (x.log[k]).seq + x.log.length = r.seq + k := by
    intro k hk
    have := seqs k hk
    omega
  rw [GoodLog, lastWritten_append y log]
  refine ⟨by omega, top, ?_, by omega, loss⟩
  rw [log]
  exact consecutive_append before

/-- Step 6 of R100 and R114: a record stored in the place of the oldest of 4096. -/
theorem GoodLog.replace (h : x.GoodLog) {y : Compliance} {r : Record} (full : ¬ x.log.length < 4096)
    (seq : r.seq = x.lastWritten + 1) (top : r.seq ≤ 2 ^ 48 - 1) (log : y.log = x.log.tail ++ [r]) (mark : y.mark = x.mark)
    (loss : y.loss = 0) : y.GoodLog := by
  obtain ⟨length, last, seqs, markLe, _⟩ := h
  have all : x.log.length = 4096 := by omega
  have tailLength : x.log.tail.length = 4095 := by rw [List.length_tail, all]
  have newLength : y.log.length = 4096 := by rw [log, List.length_append, tailLength, List.length_singleton]
  have before : ∀ k, ∀ h : k < x.log.tail.length, (x.log.tail[k]).seq + x.log.tail.length = r.seq + k := by
    intro k hk
    rw [List.getElem_tail]
    have := seqs (k + 1) (by omega)
    omega
  rw [GoodLog, lastWritten_append y log]
  refine ⟨by omega, top, ?_, by omega, loss⟩
  rw [log]
  exact consecutive_append before

/-- Steps 6 to 8 of R100: the record of the next sequence is stored, and no write is in progress. -/
theorem ordered_finish (h : x.GoodLog) {r : Record} (seq : r.seq = x.lastWritten + 1) (top : r.seq ≤ 2 ^ 48 - 1)
    (next : x.nextSeq = min (2 ^ 48 - 1) (r.seq + 1)) (time : Option Mi) : (x.finish time r).1.Ordered := by
  have idle (y : Compliance) {s : Record} {l : List Record} (good : y.GoodLog) (log : y.log = l ++ [s]) (same : s.seq = r.seq)
      (ynext : y.nextSeq = x.nextSeq) (writing : y.writing = none) : y.Ordered := by
    refine (ordered_iff y).mpr ⟨good, fun _ => ?_, fun r h => ?_⟩
    · rw [lastWritten_append y log, same, ynext, next]
    · rw [writing] at h
      cases h
  unfold finish
  cases oldest : x.overwritten with
  | none =>
    have short : x.log.length < 4096 := by
      unfold overwritten logPlaces at oldest
      split at oldest
      · assumption
      · next full =>
        have nonempty : x.log ≠ [] := List.ne_nil_of_length_pos (by omega)
        rw [Option.map_eq_none_iff, List.head?_eq_none_iff] at oldest
        exact absurd oldest nonempty
    dsimp only
    refine idle _ (h.append short ?_ ?_ rfl rfl rfl) rfl rfl rfl rfl
    · exact seq
    · exact top
  | some o =>
    have full : ¬ x.log.length < 4096 := by
      intro short
      unfold overwritten logPlaces at oldest
      rw [if_pos short] at oldest
      cases oldest
    dsimp only
    refine idle _ (h.replace full ?_ ?_ rfl rfl rfl) rfl rfl rfl rfl
    · exact seq
    · exact top

/-- Steps 1 to 5 of R100: while no write is in progress, the next sequence is taken. -/
theorem ordered_beginWrite (h : x.Ordered) (idle : x.writing = none) (time : Option Mi) (guardMi : Nat) (svc : Svc) (g : Segment) :
    (x.beginWrite time guardMi svc g).1.Ordered := by
  unfold beginWrite
  split
  · exact h
  · next room =>
    obtain ⟨log, next, _⟩ := (ordered_iff x).mp h
    replace next := next idle
    have last := log.2.1
    have ne : x.lastWritten ≠ 2 ^ 48 - 1 := by
      intro e
      simp [exhausted, maxSequence, e] at room
    have seq : x.nextSeq = x.lastWritten + 1 := by omega
    dsimp only
    split
    · refine (ordered_iff _).mpr ⟨log, nofun, fun r hr => ?_⟩
      obtain rfl := Option.some.inj hr
      exact ⟨seq, show x.nextSeq ≤ _ by omega, rfl⟩
    · exact ordered_finish (x := { x with nextSeq := min maxSequence (x.nextSeq + 1) }) log seq (show x.nextSeq ≤ _ by omega) rfl time

/-- R100: what waits is taken as far as it can be. -/
theorem good_writeAll (time : Option Mi) (map : Vector ServiceRecord 16) (ws : List Waiting) (h : x.Ordered) :
    (writeAll time map ws x).1.Good := by
  induction ws generalizing x with
  | nil => exact (good_iff _).mpr ⟨h, fun _ => rfl⟩
  | cons w ws ih =>
    unfold writeAll
    split
    · next busy => exact (good_iff _).mpr ⟨h, fun idle => by simp [show x.writing = none from idle] at busy⟩
    · next idle =>
      refine ih ?_
      cases w with
      | clearReferences => exact h
      | completion svc g => exact ordered_beginWrite h (by simpa using idle) ..

/-- R115: a mark that COLLECT leaves is at most the last sequence written. -/
theorem Good.collectTo (h : x.Good) (n : Nat) : (x.collectTo n).1.Good := by
  unfold Compliance.collectTo
  split
  · exact h
  · split
    · exact h
    · next below _ =>
      obtain ⟨length, last, seqs, idle, busy, _, loss⟩ := h
      exact ⟨length, last, seqs, idle, busy, Nat.le_of_not_lt below, loss⟩

end Compliance

/-! ### The commands that reach the compliance unit -/

theorem State.settleWrites_compliance (s : State) :
    s.settleWrites.compliance = (Compliance.writeAll s.now s.map s.compliance.waiting s.compliance).1 := rfl

/-- A condition that writing and the dropping of a reference keep is kept by the schedule unit. -/
theorem exec_schedule_keeps_compliance {P : Compliance → Prop} (refs : ∀ x v, P x → P { x with refs := v })
    (complete : ∀ (s : State) ws, P s.compliance → P (s.complete ws).compliance) {c : Instr} {s t : State}
    (hc : c.part = .schedule) (h : exec c s = .next t) (good : P s.compliance) : P t.compliance := by
  have settle (u : State) (i : Svc) (hu : P u.compliance) : P (u.settleClosing i).compliance := by
    rw [State.settleClosing_eq]
    split
    · exact hu
    · exact complete _ _ hu
  have same {u : State} (e : u.compliance = s.compliance) : P u.compliance := e ▸ good
  cases c <;> cases hc <;> obtain rfl := Host.Outcome.next.inj h
  case configureService =>
    split
    · split
      · exact same (by simp)
      · exact same (by simp)
    · exact same (by simp)
  case withdraw | configureGroup =>
    split
    · exact same (by simp)
    · split
      · exact same (by simp)
      · exact same (by simp)
  case startService =>
    split
    · exact same (by simp)
    · split
      · rw [State.respond_compliance]
        exact refs _ _ good
      · exact same (by simp)
  case stopService =>
    split
    · exact same (by simp)
    · split
      · exact same (by simp)
      · exact same (by simp)
  case stage =>
    split
    · split
      · exact same (by simp)
      · exact same (by simp)
    · exact same (by simp)
  case groupStage =>
    split
    · split
      · exact same (by simp)
      · dsimp only
        split
        · exact same (by simp)
        · rw [State.respondOk_compliance]
          refine State.foldl_induction (fun u => P u.compliance) (fun u i hu => ?_) _ good
          exact hu
    · exact same (by simp)
  case scheduleMiTick =>
    refine State.foldl_induction (fun u => P u.compliance) (fun u i hu => ?_) _ good
    exact settle _ i (by simpa using hu)
  case recordingStateChanged =>
    split <;> exact good
  case meterSummaryArrival i _ _ => exact settle _ i good
  case captionSummaryArrival i _ _ => exact settle _ i good

theorem State.warmed_compliance (s : State) (rq : Req) (straps : Straps) :
    ∃ u : State, u.compliance = s.compliance ∧ (s.warmed rq straps).compliance = u.warmSchedule.compliance := by
  have measured (u : State) : u.warmMeasures.compliance = u.compliance := rfl
  have strapped (u : State) : (u.warmPorts straps).compliance = u.compliance := rfl
  unfold State.warmed
  rw [strapped, (Frame.warmBank _).compliance (by decide) (by decide), (Frame.warmRecorder _).compliance (by decide) (by decide),
    measured]
  refine ⟨_, ?_, rfl⟩
  rw [(Frame.dropRunStarted .ports _).compliance (by decide) (by decide), (Frame.warmRouter _).compliance (by decide) (by decide),
    (Frame.passServed .ports _).compliance (by decide) (by decide)]

/-- A condition on the compliance unit is kept by every command when its own commands, writing and the dropping of references keep
it, and power-on establishes it. -/
theorem exec_keeps_compliance {P : Compliance → Prop} (refs : ∀ x v, P x → P { x with refs := v })
    (complete : ∀ (s : State) ws, P s.compliance → P (s.complete ws).compliance) (power : P Compliance.powerOn)
    (own : ∀ {c : Instr} {s t : State}, c.part = .compliance → exec c s = .next t → P s.compliance → P t.compliance)
    {c : Instr} {s t : State} (h : exec c s = .next t) (good : P s.compliance) : P t.compliance := by
  rcases exec_cases h with ⟨_, frame⟩ | ⟨straps, rfl⟩ | ⟨rq, straps, rfl⟩
  · by_cases compliance : c.part = .compliance
    · exact own compliance h good
    · by_cases schedule : c.part = .schedule
      · exact exec_schedule_keeps_compliance refs complete schedule h good
      · rwa [frame.compliance compliance schedule]
  · exact power
  · rw [State.respond_compliance]
    obtain ⟨u, same, e⟩ := s.warmed_compliance rq straps
    rw [e]
    exact complete _ _ (complete _ _ (by rwa [← same] at good))

theorem Compliance.good_complete (s : State) (ws : List Waiting) (good : s.compliance.Good) : (s.complete ws).compliance.Good :=
  good_writeAll _ _ _ ((good_iff _).mp good).1

theorem exec_compliance_good {c : Instr} {s t : State} (hc : c.part = .compliance) (h : exec c s = .next t)
    (good : s.compliance.Good) : t.compliance.Good := by
  have ordered := ((Compliance.good_iff _).mp good).1
  cases c <;> cases hc <;> obtain rfl := Host.Outcome.next.inj h
  case recordWrite => exact Compliance.good_writeAll _ _ _ ordered
  case holdAnswer hold =>
    split
    · exact good
    · next r writing =>
      refine Compliance.good_writeAll _ _ _ ?_
      obtain ⟨log, _, busy⟩ := (Compliance.ordered_iff _).mp ordered
      obtain ⟨seq, top, next⟩ := busy r writing
      refine Compliance.ordered_finish log ?_ ?_ ?_ _
      · exact seq
      · exact top
      · exact next
  case writeProfile =>
    split
    · rw [State.respondOk_compliance]
      exact good
    · rw [State.refuse_compliance]
      exact good
  case collect rq seq =>
    rw [State.respond_compliance]
    exact good.collectTo seq

theorem Compliance.good_powerOn : Compliance.powerOn.Good :=
  ⟨rfl, Nat.zero_le _, fun k h => absurd h (Nat.not_lt_zero k), fun _ => ⟨rfl, rfl⟩, by simp [powerOn], Nat.le_refl 0, rfl⟩

theorem exec_keeps_log {c : Instr} {s t : State} (h : exec c s = .next t) (good : s.compliance.Good) : t.compliance.Good :=
  exec_keeps_compliance (P := Compliance.Good) (fun _ _ h => h) Compliance.good_complete
    Compliance.good_powerOn exec_compliance_good h good

/-! ### The profiles (R95, R97) -/

theorem clampOptInt_mem {lo hi : Int} (h : lo ≤ hi) {a : Option Int} {n : Int} (e : (clampOptInt lo hi a).val = some n) :
    lo ≤ n ∧ n ≤ hi := by
  cases a with
  | none => cases e
  | some m =>
    obtain rfl := Option.some.inj e
    exact clampInt_mem h m

theorem clampOptNat_mem {lo hi : Nat} (h : lo ≤ hi) {a : Option Nat} {n : Nat} (e : (clampOptNat lo hi a).val = some n) :
    lo ≤ n ∧ n ≤ hi := by
  cases a with
  | none => cases e
  | some m =>
    obtain rfl := Option.some.inj e
    exact clampNat_mem h m

/-- R97: what WRITE PROFILE stores lies in range. -/
theorem readProfileArgs_good {a : ProfileArgs} {p : Clamped Profile} (h : readProfileArgs a = some p) : p.val.Good := by
  simp only [readProfileArgs, Option.bind_eq_bind, Option.bind_eq_some_iff, Option.some.injEq] at h
  obtain ⟨target, _, tolerance, _, shortTerm, _, peak, _, relative, _, _, _, _, _, coverage, _, gap, _, overrun, _, rfl⟩ := h
  obtain ⟨targetLow, targetHigh⟩ := clampInt_mem (lo := -700) (hi := 0) (by decide) target
  exact ⟨targetLow, targetHigh, (clampNat_mem (by decide) tolerance).2, fun _ e => clampOptInt_mem (by decide) e,
    fun _ e => clampOptInt_mem (by decide) e, fun _ e => (clampOptNat_mem (by decide) e).2, (clampNat_mem (by decide) coverage).2,
    fun _ e => clampOptNat_mem (by decide) e, (clampNat_mem (by decide) overrun).2⟩

theorem Profile.good_default : Profile.default.Good := by
  simp [Profile.Good, Profile.default]

/-- R95: every profile of the table lies in its ranges. -/
def Compliance.GoodProfiles (x : Compliance) : Prop := ∀ k : Fin 8, x.profiles[k].Good

theorem Compliance.GoodProfiles.congr {x y : Compliance} (h : x.GoodProfiles) (e : y.profiles = x.profiles) : y.GoodProfiles := by
  unfold GoodProfiles
  rw [e]
  exact h

theorem Compliance.goodProfiles_complete (s : State) (ws : List Waiting) (good : s.compliance.GoodProfiles) :
    (s.complete ws).compliance.GoodProfiles :=
  good.congr (writeAll_keeps ..).1

theorem Compliance.finish_profiles (x : Compliance) (time : Option Mi) (r : Record) : (x.finish time r).1.profiles = x.profiles := by
  unfold finish
  dsimp only
  split <;> rfl

theorem Compliance.collectTo_profiles (x : Compliance) (n : Nat) : (x.collectTo n).1.profiles = x.profiles := by
  unfold collectTo
  split
  · rfl
  · split <;> rfl

theorem exec_compliance_profiles {c : Instr} {s t : State} (hc : c.part = .compliance) (h : exec c s = .next t)
    (good : s.compliance.GoodProfiles) : t.compliance.GoodProfiles := by
  cases c <;> cases hc <;> obtain rfl := Host.Outcome.next.inj h
  case recordWrite => exact good.congr (Compliance.writeAll_keeps ..).1
  case holdAnswer hold =>
    split
    · exact good
    · exact good.congr ((Compliance.writeAll_keeps ..).1.trans (Compliance.finish_profiles ..))
  case writeProfile =>
    split
    · next n p _ read =>
      rw [State.respondOk_compliance]
      exact Bank.forall_getElem_set good n (readProfileArgs_good read)
    · rw [State.refuse_compliance]
      exact good
  case collect rq seq =>
    rw [State.respond_compliance]
    exact good.congr (Compliance.collectTo_profiles ..)

theorem exec_keeps_profiles {c : Instr} {s t : State} (h : exec c s = .next t) (good : s.compliance.GoodProfiles) :
    t.compliance.GoodProfiles :=
  exec_keeps_compliance (P := Compliance.GoodProfiles) (fun _ _ h => h) Compliance.goodProfiles_complete
    (fun k => by simpa [Compliance.powerOn] using Profile.good_default) exec_compliance_profiles h good

/-! ### The settings of the store (R120, R125, R136) -/

/-- The settings of the store: only CONFIGURE STORE and SET RESERVES change them. -/
def Store.settings (x : Store) : Nat × Nat × Nat × Nat × Nat :=
  (x.slotCount, x.reserve0, x.reserve1, x.reserve2, x.threshold)

theorem Store.GoodSettings.congr {x y : Store} (h : x.GoodSettings) (e : y.settings = x.settings) : y.GoodSettings := by
  simp only [Store.settings, Prod.mk.injEq] at e
  obtain ⟨slots, r0, r1, r2, threshold⟩ := e
  unfold GoodSettings
  rwa [slots, r0, r1, r2, threshold]

@[simp] theorem Store.testBacklog_settings (x : Store) (t : Option Mi) : (x.testBacklog t).1.settings = x.settings := by
  rw [Store.testBacklog_eq]
  rfl

@[simp] theorem Store.update_settings (x : Store) (n : Nat) (f : Slot → Slot) : (x.update n f).settings = x.settings := by
  unfold Store.update
  split <;> rfl

/-! #### The recorder's work for one service -/

namespace Work

/-- The recorder's work leaves the settings of the store and the service record of the run. -/
structure Leaves (w v : Work) : Prop where
  settings : v.store.settings = w.store.settings
  record : v.x.record = w.x.record

namespace Leaves

variable {u v w : Work} {a : Around}

theorem refl (w : Work) : Leaves w w := ⟨rfl, rfl⟩

theorem trans (h : Leaves u v) (k : Leaves v w) : Leaves u w := ⟨k.settings.trans h.settings, k.record.trans h.record⟩

theorem say (h : Leaves u w) (ms : List Instr) : Leaves u (w.say ms) := h.trans ⟨rfl, rfl⟩

theorem withX (h : Leaves u w) {x : RecorderSvc} (e : x.record = w.x.record) : Leaves u { w with x := x } := h.trans ⟨rfl, e⟩

theorem testBacklog (h : Leaves u w) : Leaves u (w.testBacklog a) := h.trans ⟨Store.testBacklog_settings .., rfl⟩

theorem setRecording (h : Leaves u w) (state : Recording) (m : Mi) : Leaves u (w.setRecording a state m) := by
  refine h.trans ?_
  unfold Work.setRecording
  dsimp only
  split <;> exact ⟨rfl, rfl⟩

theorem fill (h : Leaves u w) (b : Mi) (n : Nat) : Leaves u (w.fill a b n) := h.trans ⟨rfl, rfl⟩

theorem openSpan (h : Leaves u w) (b m : Mi) : Leaves u (w.openSpan a b m) := by
  refine h.trans ?_
  unfold Work.openSpan
  split
  · exact ((refl w).fill b _).setRecording ..
  · exact (((refl w).say _).fill b _).setRecording ..
  · exact (((refl w).say _).fill b _).testBacklog.setRecording ..
  · refine Leaves.setRecording (withX (refl w) ?_) ..
    rfl

theorem endAsGap (h : Leaves u w) (n : Nat) (start first : Mi) : Leaves u (w.endAsGap a n start first) :=
  (h.trans (w := (w.giveUp a n start).recordGap a start) ⟨rfl, rfl⟩).setRecording ..

theorem endChunk (h : Leaves u w) (n : Nat) (s : Slot) (e : Mi) (cut : Bool) : Leaves u (w.endChunk a n s e cut) := by
  unfold Work.endChunk
  split
  · exact h.endAsGap ..
  · exact h.trans ⟨rfl, rfl⟩

theorem endSpan (h : Leaves u w) (p : Span) : Leaves u (w.endSpan a p) := by
  unfold Work.endSpan
  split
  · exact h.trans ⟨rfl, rfl⟩
  · split
    · exact h
    · exact h.endChunk ..

theorem applyItem (h : Leaves u w) (p : Span) (i : HeldItem) : Leaves u (w.applyItem p i) := by
  refine h.trans ?_
  unfold Work.applyItem
  split
  · exact refl w
  · refine ⟨?_, rfl⟩
    dsimp only
    split
    · rfl
    · exact Store.update_settings ..

theorem sort (h : Leaves u w) (i : HeldItem) : Leaves u (w.sort i) := by
  unfold Work.sort
  split
  · exact h
  · split
    · exact h
    · split
      · exact h.applyItem ..
      · exact h.trans ⟨rfl, rfl⟩

theorem foldl_sort (h : Leaves u w) (l : List HeldItem) : Leaves u (l.foldl Work.sort w) := by
  induction l generalizing w with
  | nil => exact h
  | cons i l ih => exact ih (h.sort i)

theorem sortHeld (h : Leaves u w) : Leaves u w.sortHeld :=
  (h.withX (x := { w.x with held := [] }) rfl).foldl_sort _

theorem takeItem (h : Leaves u w) (i : HeldItem) : Leaves u (w.takeItem i) := by
  unfold Work.takeItem
  split
  · split
    · exact h
    · exact h.trans ⟨rfl, rfl⟩
    · exact h.sort i
  · exact h

theorem boundary (h : Leaves u w) : Leaves u (w.boundary a) := by
  unfold Work.boundary
  split
  · exact h
  · exact ((h.endSpan _).testBacklog.openSpan ..).sortHeld

theorem boundaries (h : Leaves u w) (fuel : Nat) : Leaves u (Work.boundaries a fuel w) := by
  induction fuel generalizing w with
  | zero => exact h
  | succ fuel ih =>
    unfold Work.boundaries
    split
    · exact h
    · exact ih h.boundary

theorem settle (h : Leaves u w) : Leaves u (w.settle a) := h.boundaries _

theorem onAir (h : Leaves u w) (m : OnAirMsg) : Leaves u (w.onAir a m) := by
  refine h.trans ?_
  unfold Work.onAir
  split
  · exact refl w
  · exact ⟨rfl, rfl⟩
  · dsimp only
    split
    · refine Leaves.sortHeld (Leaves.openSpan (withX (refl w) ?_) ..)
      rfl
    · exact ⟨rfl, rfl⟩

theorem cutSpan (h : Leaves u w) (p : Span) (e : Mi) : Leaves u (w.cutSpan a p e) := by
  unfold Work.cutSpan
  dsimp only
  split
  · split
    · exact h.trans ⟨rfl, rfl⟩
    · exact h
  · split
    · exact h
    · split
      · exact h.endChunk ..
      · exact h.trans ⟨rfl, rfl⟩

theorem cut (h : Leaves u w) (e : Mi) : Leaves u (w.cut a e) := by
  unfold Work.cut
  split
  · exact h.trans ⟨rfl, rfl⟩
  · exact (h.cutSpan ..).trans ⟨rfl, rfl⟩

theorem runEnded (h : Leaves u w) (endMi : Option Mi) : Leaves u (w.runEnded a endMi) := by
  unfold Work.runEnded
  split
  · exact h
  · exact h.trans ⟨rfl, rfl⟩
  · exact h
  · exact (h.cut _).testBacklog

theorem takeTick (h : Leaves u w) (t : Mi) : Leaves u (w.takeTick t) := by
  unfold Work.takeTick
  split
  · exact h
  · exact h.trans ⟨rfl, rfl⟩

theorem warmReset (h : Leaves u w) : Leaves u (w.warmReset a) := by
  refine Leaves.trans ?_ (v := match w.x.run with
    | .active => w.cut a (a.time.getD 0)
    | .waiting => w.idle
    | .idle => w.idle) ⟨rfl, rfl⟩
  split
  · exact h.cut _
  · exact h.trans ⟨rfl, rfl⟩
  · exact h.trans ⟨rfl, rfl⟩

end Leaves

end Work

/-! #### The commands that reach the store -/

theorem State.worked_settings {s : State} {i : Svc} {w : Work} (h : (s.work i).Leaves w) :
    (s.worked i w).store.settings = s.store.settings := by
  rw [State.worked_store]
  exact h.settings

@[simp] theorem State.testBacklog_settings (s : State) : s.testBacklog.store.settings = s.store.settings :=
  Store.testBacklog_settings ..

theorem State.expireTake_settings (s : State) (begun : Option Mi) (t : Take) :
    (s.expireTake begun t).store.settings = s.store.settings := by
  unfold State.expireTake
  split
  · rfl
  · rw [State.testBacklog_settings]
    exact Store.update_settings ..

/-- R120: the slot count that CONFIGURE STORE stores. -/
theorem storeCount_mem (n : Nat) : 4096 ≤ (storeCount n).val ∧ (storeCount n).val ≤ 65536 ∧ 4096 ∣ (storeCount n).val := by
  unfold storeCount
  dsimp only
  split
  · omega
  · split <;> omega

theorem Store.goodSettings_configured {x : Store} (h : x.GoodSettings) (n : Nat) :
    (x.configured (storeCount n).val).GoodSettings := by
  obtain ⟨low, high, whole⟩ := storeCount_mem n
  obtain ⟨_, _, _, r21, r10, _, _, _⟩ := h
  refine ⟨low, high, whole, ?_, ?_, Nat.min_le_right .., ?_, Nat.div_le_self ..⟩ <;> simp only [Store.configured] <;> omega

/-- R125: what SET RESERVES stores is in range and in order. -/
theorem Store.goodSettings_withReserves {x : Store} (h : x.GoodSettings) {a : ReserveArgs} {r : Clamped ReserveSetting}
    (read : readReserveArgs x.slotCount a = some r) : (x.withReserves r.val).GoodSettings := by
  obtain ⟨low, high, whole, _⟩ := h
  simp only [readReserveArgs, Option.bind_eq_bind, Option.bind_eq_some_iff, Option.some.injEq] at read
  obtain ⟨r0, _, r1, _, r2, _, th, _, rfl⟩ := read
  obtain ⟨thresholdLow, thresholdHigh⟩ := clampNat_mem (lo := 1024) (hi := x.slotCount) (by omega) th
  refine ⟨low, high, whole, ?_, ?_, ?_, thresholdLow, thresholdHigh⟩ <;> simp only [Store.withReserves] <;> omega

theorem exec_store_settings {c : Instr} {s t : State} (hc : c.part = .store) (h : exec c s = .next t)
    (good : s.store.GoodSettings) : t.store.GoodSettings := by
  have same {u : State} (e : u.store.settings = s.store.settings) : u.store.GoodSettings := good.congr e
  cases c <;> cases hc <;> obtain rfl := Host.Outcome.next.inj h
  case recorderRunStarted => exact good
  case onAirMessage => exact same (State.worked_settings ((Work.Leaves.refl _).onAir _).settle)
  case recorderRunEnded => exact same (State.worked_settings ((Work.Leaves.refl _).runEnded _))
  case recorderSampleFrame | recorderJudgment | recorderCaptionPacket | recorderProxyFrame =>
    exact same (State.worked_settings ((Work.Leaves.refl _).takeItem _).settle)
  case recorderMiTick =>
    refine State.foldl_induction (fun u => u.store.GoodSettings) (fun u i hu => ?_) _ good
    exact hu.congr (State.worked_settings ((Work.Leaves.refl _).takeTick _).settle)
  case spanBoundary => exact same (State.worked_settings (Work.Leaves.refl _).boundary)
  case configureStore rq slots =>
    split
    · exact same (by rw [State.refuse_store]; rfl)
    · rw [State.respondOk_store, State.send_store]
      exact Store.goodSettings_configured good slots
  case setReserves =>
    split
    · exact same (by rw [State.refuse_store]; rfl)
    · next r read =>
      rw [State.respondOk_store]
      exact (Store.goodSettings_withReserves good read).congr (State.testBacklog_settings _)
  case createHold =>
    split
    · exact same (by rw [State.refuse_store]; rfl)
    · split
      · exact same (by rw [State.refuse_store]; rfl)
      · split
        · exact same (by rw [State.refuse_store]; rfl)
        · exact same (by rw [State.respond_store]; rfl)
  case automaticHoldRequest =>
    split
    · exact good
    · exact same rfl
  case releaseHold =>
    split
    · exact same (by rw [State.refuse_store]; rfl)
    · split
      · exact same (by rw [State.refuse_store]; rfl)
      · split
        · exact same (by rw [State.refuse_store]; rfl)
        · exact same (by rw [State.respond_store]; rfl)
  case fixHold =>
    split
    · exact same (by rw [State.refuse_store]; rfl)
    · split
      · exact same (by rw [State.refuse_store]; rfl)
      · exact same (by rw [State.respond_store]; rfl)
  case take =>
    split
    · exact same (by rw [State.refuse_store]; rfl)
    · split
      · exact same (by rw [State.refuse_store]; rfl)
      · split
        · exact same (by rw [State.refuse_store]; rfl)
        · refine same ?_
          rw [State.respondOk_store, State.testBacklog_settings]
          exact Store.update_settings ..
  case confirm =>
    split
    · exact same (by rw [State.refuse_store]; rfl)
    · split
      · refine same ?_
        rw [State.respond_store]
        exact Store.update_settings ..
      · split
        · exact same (by rw [State.respond_store]; rfl)
        · exact same (by rw [State.refuse_store]; rfl)
  case returnTake =>
    split
    · exact same (by rw [State.refuse_store]; rfl)
    · split
      · exact same (by rw [State.refuse_store]; rfl)
      · refine same ?_
        rw [State.respond_store, State.testBacklog_settings]
        exact Store.update_settings ..
  case archivePeriodEdge =>
    refine State.foldl_induction (fun u => u.store.GoodSettings) (fun u t hu => ?_) _ good
    exact hu.congr (State.expireTake_settings ..)
  case takeTimerExpiry =>
    split
    · exact good
    · split
      · exact same (State.expireTake_settings ..)
      · exact good

theorem Store.returnAll_settings (x : Store) : x.returnAll.settings = x.settings := rfl

theorem State.warmRecorder_settings (s : State) : s.warmRecorder.store.settings = s.store.settings := by
  unfold State.warmRecorder
  dsimp only
  rw [State.testBacklog_settings, Store.returnAll_settings]
  refine State.foldl_induction (fun u => u.store.settings = s.store.settings) (fun u i hu => ?_) _ rfl
  exact (State.worked_settings (Work.Leaves.refl _).warmReset).trans hu

theorem State.warmed_settings (s : State) (rq : Req) (straps : Straps) :
    (s.warmed rq straps).store.settings = s.store.settings :=
  s.warmed_keeps (fun u => u.store.settings) (fun _ _ => rfl)
    (fun u => congrArg Store.settings ((Frame.passServed .ports u).store (by decide))) (fun _ => rfl)
    (fun u => congrArg Store.settings ((Frame.warmSchedule u).store (by decide))) (fun _ => rfl) State.warmRecorder_settings
    (fun u => congrArg Store.settings ((Frame.warmBank u).store (by decide))) (fun _ _ => rfl) rq straps

theorem Store.goodSettings_powerOn : Store.powerOn.GoodSettings := by
  unfold Store.GoodSettings
  decide

theorem exec_keeps_settings {c : Instr} {s t : State} (h : exec c s = .next t) (good : s.store.GoodSettings) :
    t.store.GoodSettings := by
  rcases exec_cases h with ⟨_, frame⟩ | ⟨straps, rfl⟩ | ⟨rq, straps, rfl⟩
  · by_cases store : c.part = .store
    · exact exec_store_settings store h good
    · rwa [frame.store store]
  · exact Store.goodSettings_powerOn
  · rw [State.respond_store]
    exact good.congr (s.warmed_settings rq straps)

/-- Settles O38: the log under writing, the profiles and the settings under the requests that set them. -/
theorem everyStepKeepsLogAndSettings : Obligations.EveryStepKeepsLogAndSettings := by
  unfold Obligations.EveryStepKeepsLogAndSettings
  exact ⟨fun _ _ good h => step_keeps (P := fun s => s.compliance.Good) (fun _ _ h => h) exec_keeps_log h good,
    fun _ _ good h => step_keeps (P := fun s => s.compliance.GoodProfiles) (fun _ _ h => h) exec_keeps_profiles h good,
    fun _ _ good h => step_keeps (P := fun s => s.store.GoodSettings) (fun _ _ h => h) exec_keeps_settings h good⟩

end Sys2Proof.Machine
end

section
/-!
The balance that every step keeps in the meter and the checker (O29): `MeterSvc.Move` and `CheckerSvc.Move` list what a command can
make of one service's meter and checker.
-/

namespace Sys2Proof.Machine

theorem mapVec_fin {α β : Type} {n : Nat} (f : α → β) (v : Vector α n) (i : Fin n) : (mapVec f v)[i] = f v[i] :=
  mapVec_getElem f v i i.isLt

/-! ### The meter -/

namespace MeterSvc

variable {P : MeterSvc → Prop} {svc : Svc} {x : MeterSvc}

/-- What completing an MI and sending summaries keep, the completion of all that is due keeps. -/
theorem completeDue_keeps (done : ∀ x h j g, g ∈ x.segments → P x → P (x.completeMi svc h j g).1)
    (sent : ∀ x, P x → P (x.sendSummaries svc).1) (hx : P x) : P (x.completeDue svc).1 := by
  unfold completeDue
  split
  · exact hx
  · next h j g due =>
    refine sent _ (done _ h j g ?_ hx)
    unfold MeterSvc.due at due
    split at due
    · split at due
      · next attributed =>
        simp only [Option.some.injEq, Prod.mk.injEq] at due
        rw [← due.2.2]
        exact List.mem_of_mem_filter (List.mem_of_getLast? attributed)
      · cases due
    · cases due

theorem completeAll_keeps (done : ∀ x h j g, g ∈ x.segments → P x → P (x.completeMi svc h j g).1)
    (sent : ∀ x, P x → P (x.sendSummaries svc).1) (fuel : Nat) (hx : P x) : P (completeAll svc fuel x).1 := by
  induction fuel generalizing x with
  | zero => exact hx
  | succ fuel ih =>
    unfold completeAll
    split
    · exact hx
    · exact ih (completeDue_keeps done sent hx)

theorem settle_keeps (done : ∀ x h j g, g ∈ x.segments → P x → P (x.completeMi svc h j g).1)
    (sent : ∀ x, P x → P (x.sendSummaries svc).1) (hx : P x) : P (x.settle svc).1 :=
  completeAll_keeps done sent _ (sent x hx)

theorem drainFrom_keeps (done : ∀ x h j g, g ∈ x.segments → P x → P (x.completeMi svc h j g).1)
    (sent : ∀ x, P x → P (x.sendSummaries svc).1) (count : Nat) (m : Mi) (hx : P x) : P (drainFrom svc count m x).1 := by
  induction count generalizing m x with
  | zero => exact hx
  | succ count ih =>
    unfold drainFrom
    dsimp only
    split
    · exact ih _ hx
    · next g attributed =>
      exact ih _ (sent _ (done _ _ _ g (List.mem_of_mem_filter (List.mem_of_getLast? attributed)) hx))

/-- What one command makes of one service's meter, under the service record `r`. -/
inductive Move (r : ServiceRecord) (x : MeterSvc) : MeterSvc → Prop where
  | started : Move r x (x.runStarted r)
  | opened (svc : Svc) (m : SegOpened) : Move r x ((x.segmentOpened m).settle svc).1
  | closed (svc : Svc) (m : SegClosed) : Move r x ((x.segmentClosed m).settle svc).1
  | ended (svc : Svc) (e : Option Mi) : Move r x (x.runEnded svc e).1
  | frame (m : Mi) (f : SampleFrame) : Move r x (x.takeFrame m f)
  | judgment (svc : Svc) (m : Mi) (j : Judgment) : Move r x ((x.takeJudgment m j).settle svc).1
  | tick (svc : Svc) (t : Mi) : Move r x ((x.takeTick t).settle svc).1
  | completed (svc : Svc) : Move r x (x.completeDue svc).1
  | summaries (svc : Svc) : Move r x (x.sendSummaries svc).1
  | surveyStarted (classes : BitVec 5) (time : Option Mi) : Move r x { x with survey := Survey.started classes time }
  | surveyStopped (time : Option Mi) (v : Survey) (stop : x.survey.stop time = some v) : Move r x { x with survey := v }
  | warm : Move r x x.warmReset
  | power (i : Svc) : Move r x (MeterSvc.powerOn i)

end MeterSvc

/-- Every service's meter is as it was, or has made a move. -/
def State.MeterMoves (s t : State) : Prop := ∀ i : Svc, t.meter[i] = s.meter[i] ∨ s.meter[i].Move s.map[i] t.meter[i]

namespace State.MeterMoves

variable {s t : State}

theorem of_eq (h : t.meter = s.meter) : MeterMoves s t := fun i => .inl (by rw [h])

theorem of_set {i : Svc} {y : MeterSvc} (h : s.meter[i].Move s.map[i] y) (e : t.meter = s.meter.set i y) : MeterMoves s t := by
  intro j
  rw [e]
  by_cases hj : j = i
  · subst hj
    exact .inr (by simpa using h)
  · have : (i : Nat) ≠ j := fun h => hj (Fin.ext h.symm)
    exact .inl (by simp [this])

end State.MeterMoves

theorem State.foldl_meterTick (s : State) (t : Mi) (i : Svc) :
    (allSvcs.foldl (fun x i => x.meterDoes i ((x.meter[i].takeTick t).settle i)) s).meter[i] =
      ((s.meter[i].takeTick t).settle i).1 := by
  rw [State.foldl_each State.meter (g := fun u i => ((u.meter[i].takeTick t).settle i).1) (fun _ _ => rfl)
    (fun u i j h => ?_) allSvcs_nodup, if_pos (mem_allSvcs i)]
  have ne : (i : Nat) ≠ j := fun e => h (Fin.ext e.symm)
  simp [State.meterDoes, ne]

open State.MeterMoves in
theorem exec_meter_moves {c : Instr} {s t : State} (hc : c.part = .meter) (h : exec c s = .next t) : State.MeterMoves s t := by
  cases c <;> cases hc <;> obtain rfl := Host.Outcome.next.inj h
  case meterRunStarted i => exact of_set (i := i) .started rfl
  case meterSegmentOpened i m => exact of_set (i := i) (.opened i m) rfl
  case meterSegmentClosed i m => exact of_set (i := i) (.closed i m) rfl
  case meterRunEnded i e => exact of_set (i := i) (.ended i e) rfl
  case meterSampleFrame i m f => exact of_set (i := i) (.frame m f) rfl
  case meterJudgment i m j => exact of_set (i := i) (.judgment i m j) rfl
  case meterMiTick m =>
    intro i
    rw [State.foldl_meterTick]
    exact .inr (.tick i m)
  case meterMiCompletion i => exact of_set (i := i) (.completed i) rfl
  case meterSummary i => exact of_set (i := i) (.summaries i) rfl
  case startSurvey rq svc classes =>
    split
    · exact of_eq (by simp)
    · next i _ =>
      split
      · exact of_set (i := i) (.surveyStarted _ _) (by rw [State.respond_meter]; rfl)
      · exact of_eq (by simp)
  case stopSurvey rq svc =>
    split
    · exact of_eq (by simp)
    · next i _ =>
      split
      · exact of_eq (by simp)
      · next v stop => exact of_set (i := i) (.surveyStopped _ v stop) (by rw [State.respond_meter]; rfl)

theorem State.warmed_meter (s : State) (rq : Req) (straps : Straps) :
    (s.warmed rq straps).meter = mapVec MeterSvc.warmReset s.meter := by
  have measured (u : State) : u.warmMeasures.meter = mapVec MeterSvc.warmReset u.meter := rfl
  have strapped (u : State) : (u.warmPorts straps).meter = u.meter := rfl
  unfold State.warmed
  rw [strapped, (Frame.warmBank _).meter (by decide), (Frame.warmRecorder _).meter (by decide), measured,
    (Frame.warmSchedule _).meter (by decide), (Frame.dropRunStarted .ports _).meter (by decide),
    (Frame.warmRouter _).meter (by decide), (Frame.passServed .ports _).meter (by decide)]

theorem exec_meterMoves {c : Instr} {s t : State} (h : exec c s = .next t) : State.MeterMoves s t := by
  rcases exec_cases h with ⟨_, frame⟩ | ⟨straps, rfl⟩ | ⟨rq, straps, rfl⟩
  · by_cases meter : c.part = .meter
    · exact exec_meter_moves meter h
    · exact .of_eq (frame.meter meter)
  · intro i
    have power : State.reset.meter[i] = MeterSvc.powerOn i := by simp [State.reset]
    exact .inr (power ▸ .power i)
  · intro i
    rw [State.respond_meter, State.warmed_meter, mapVec_fin]
    exact .inr .warm

/-! #### Block counts, ring and survey (R46, R47, R52, R68) -/

/-- One place of a vector of counts raised raises their sum. -/
theorem sum_toList_set_succ {n : Nat} (v : Vector Nat n) (b : Fin n) :
    (v.set b (v[b] + 1)).toList.sum = v.toList.sum + 1 := by
  have hb : (b : Nat) < v.toList.length := by simp
  rw [Vector.toList_set, List.sum_set, if_pos hb]
  have whole := List.sum_take_add_sum_drop v.toList b
  rw [List.drop_eq_getElem_cons hb, List.sum_cons] at whole
  simp only [Vector.getElem_toList] at whole
  simp only [Fin.getElem_fin]
  omega

theorem MeterSegment.balanced_ofOpened (m : SegOpened) : (MeterSegment.ofOpened m).Balanced := by
  simp [MeterSegment.Balanced, MeterSegment.ofOpened]

/-- R47, R52: the accumulators after the block of the d-th MI. -/
theorem MeterSegment.Balanced.addBlock {g : MeterSegment} (h : g.Balanced) (ring : List SubBlock) :
    let g' := g.addBlock (blockOf (g.mis + 1) ring)
    g'.positions = g.mis + 1 - 3 ∧ g'.positions = g'.histogram.toList.sum + g'.belowGate + g'.excluded ∧
      g'.overRange ≤ g'.histogram.toList.sum := by
  obtain ⟨positions, sum, overRange, _⟩ := h
  have position : blockOf (g.mis + 1) ring = .noPosition ↔ g.mis < 3 := by
    unfold blockOf
    split
    · simp only [true_iff]
      omega
    · have : ¬ g.mis < 3 := by omega
      simp only [this, iff_false]
      split
      · nofun
      · split
        · nofun
        · split <;> nofun
  cases block : blockOf (g.mis + 1) ring with
  | noPosition =>
    have few := position.mp block
    refine ⟨?_, sum, overRange⟩
    simp only [MeterSegment.addBlock]
    omega
  | excluded =>
    have many := mt position.mpr (by simp [block])
    refine ⟨?_, ?_, overRange⟩ <;> simp only [MeterSegment.addBlock] <;> omega
  | below =>
    have many := mt position.mpr (by simp [block])
    refine ⟨?_, ?_, overRange⟩ <;> simp only [MeterSegment.addBlock] <;> omega
  | binned c =>
    have many := mt position.mpr (by simp [block])
    simp only [MeterSegment.addBlock, sum_toList_set_succ]
    refine ⟨by omega, by omega, ?_⟩
    split <;> omega

theorem Survey.good_started (classes : BitVec 5) (time : Option Mi) : (Survey.started classes time).Good := by
  simp [Survey.Good, Survey.started]

/-- R68: a count that is raised and held at 2^32 − 1, and the mark that it stands there. -/
theorem saturating {n : Nat} {mark : Bool} (_ : n ≤ 2 ^ 32 - 1 ∧ (n = 2 ^ 32 - 1 → mark = true)) :
    min max32 (n + 1) ≤ 2 ^ 32 - 1 ∧ (min max32 (n + 1) = 2 ^ 32 - 1 → (mark || min max32 (n + 1) == max32) = true) := by
  unfold max32
  refine ⟨Nat.min_le_left .., fun e => ?_⟩
  rw [e]
  simp

theorem Survey.Good.offer {v : Survey} (h : v.Good) (cls : SegClass) (b : Block) : (v.offer cls b).Good := by
  obtain ⟨bins, belowGate⟩ := h
  cases b with
  | noPosition | excluded => exact ⟨bins, belowGate⟩
  | below =>
    unfold Survey.offer Survey.offerBelow
    dsimp only
    split
    · refine ⟨fun b => ⟨(bins b).1, fun e => ?_⟩, saturating belowGate⟩
      simp [(bins b).2 e]
    · exact ⟨bins, belowGate⟩
  | binned c =>
    unfold Survey.offer Survey.offerBin
    dsimp only
    split
    · refine ⟨fun b => ?_, belowGate.1, fun e => by simp [belowGate.2 e]⟩
      refine Bank.forall_getElem_set (P := fun n => n ≤ 2 ^ 32 - 1 ∧
        (n = 2 ^ 32 - 1 → (v.saturated || min max32 (v.bins[binOfCode c] + 1) == max32) = true)) (fun b => ?_) _
        (saturating (bins _)) b
      exact ⟨(bins b).1, fun e => by simp [(bins b).2 e]⟩
    · exact ⟨bins, belowGate⟩

theorem Survey.Good.stop {v w : Survey} (h : v.Good) {time : Option Mi} (e : v.stop time = some w) : w.Good := by
  unfold Survey.stop at e
  split at e
  · cases e
  · obtain rfl := Option.some.inj e
    exact h
  · obtain rfl := Option.some.inj e
    exact h

namespace MeterSvc

variable {x y : MeterSvc} {svc : Svc}

theorem length_ringAfter (h : x.ring.length ≤ 30) (mis : Nat) (b : SubBlock) : (x.ringAfter mis b).length ≤ 30 := by
  have old : (if mis = 0 then [] else x.ring).length ≤ 30 := by
    split
    · exact Nat.zero_le _
    · exact h
  unfold ringAfter ringPlaces
  dsimp only
  rw [List.length_append, List.length_singleton]
  generalize (if mis = 0 then [] else x.ring) = old' at old
  split
  · rw [List.length_tail]
    omega
  · omega

theorem Good.completeMi (h : x.Good) (svc : Svc) (d : HeldMi) (j : Judgment) {g : MeterSegment} (hg : g ∈ x.segments) :
    (x.completeMi svc d j g).1.Good := by
  obtain ⟨ring, segments, survey⟩ := h
  refine ⟨length_ringAfter ring .., fun e he => ?_, survey.offer ..⟩
  obtain ⟨e₀, mem, rfl⟩ := List.mem_map.mp he
  split
  · obtain ⟨positions, sum, overRange⟩ := (segments g hg).addBlock (x.ringAfter g.mis ⟨d.mi, (x.subBlock d j).2⟩)
    refine ⟨positions, sum, overRange, ?_⟩
    have := (segments g hg).2.2.2
    dsimp only
    split <;> omega
  · exact segments e₀ mem

theorem Good.sendSummaries (h : x.Good) (svc : Svc) : (x.sendSummaries svc).1.Good :=
  ⟨h.1, fun g hg => h.2.1 g (List.mem_of_mem_filter hg), h.2.2⟩

theorem Good.settle (h : x.Good) (svc : Svc) : (x.settle svc).1.Good :=
  settle_keeps (fun _ d j _ hg hx => hx.completeMi svc d j hg) (fun _ hx => hx.sendSummaries svc) h

theorem Good.segmentOpened (h : x.Good) (m : SegOpened) : (x.segmentOpened m).Good := by
  obtain ⟨ring, segments, survey⟩ := h
  have more : ∀ g ∈ x.segments ++ [MeterSegment.ofOpened m], g.Balanced :=
    List.forall_mem_append.mpr ⟨segments, by simpa using MeterSegment.balanced_ofOpened m⟩
  unfold MeterSvc.segmentOpened
  split
  · exact ⟨ring, segments, survey⟩
  · exact ⟨ring, more, survey⟩
  · exact ⟨ring, more, survey⟩

theorem Good.segmentClosed (h : x.Good) (m : SegClosed) : (x.segmentClosed m).Good := by
  obtain ⟨ring, segments, survey⟩ := h
  unfold MeterSvc.segmentClosed
  split
  · refine ⟨ring, fun g hg => ?_, survey⟩
    obtain ⟨g₀, mem, rfl⟩ := List.mem_map.mp hg
    split <;> exact segments g₀ mem
  · exact ⟨ring, segments, survey⟩

theorem Good.runEnded (h : x.Good) (svc : Svc) (e : Option Mi) : (x.runEnded svc e).1.Good := by
  unfold MeterSvc.runEnded
  split
  · exact h
  · exact h
  · exact h
  · exact drainFrom_keeps (P := MeterSvc.Good) (fun _ d j _ hg hx => hx.completeMi svc d j hg)
      (fun _ hx => hx.sendSummaries svc) _ _ h

theorem good_powerOn (i : Svc) : (MeterSvc.powerOn i).Good := by
  refine ⟨Nat.zero_le _, nofun, ?_⟩
  simp [MeterSvc.powerOn, Survey.powerOn, Survey.Good]

theorem Good.move {r : ServiceRecord} (move : x.Move r y) (h : x.Good) : y.Good := by
  cases move with
  | started =>
    unfold runStarted
    split
    · exact ⟨Nat.zero_le _, h.2⟩
    · exact h
  | opened svc m => exact (h.segmentOpened m).settle svc
  | closed svc m => exact (h.segmentClosed m).settle svc
  | ended svc e => exact h.runEnded svc e
  | frame m f =>
    unfold takeFrame
    split <;> exact h
  | judgment svc m j =>
    refine Good.settle ?_ svc
    unfold takeJudgment
    split <;> exact h
  | tick svc t =>
    refine Good.settle ?_ svc
    unfold takeTick
    split <;> exact h
  | completed svc =>
    exact completeDue_keeps (fun _ d j _ hg hx => hx.completeMi svc d j hg) (fun _ hx => hx.sendSummaries svc) h
  | summaries svc => exact h.sendSummaries svc
  | surveyStarted classes time => exact ⟨h.1, h.2.1, Survey.good_started classes time⟩
  | surveyStopped time v stop => exact ⟨h.1, h.2.1, h.2.2.stop stop⟩
  | warm => exact ⟨Nat.zero_le _, nofun, h.2.2⟩
  | power i => exact good_powerOn i

/-- R13: the meter takes the service record at run started, and keeps it. -/
theorem Move.record {r : ServiceRecord} (move : x.Move r y) :
    y.record = x.record ∨ y.record = r ∨ ∃ i, y.record = ServiceRecord.powerOn i := by
  have settled (z : MeterSvc) (svc : Svc) : (z.settle svc).1.record = z.record :=
    settle_keeps (P := fun w => w.record = z.record) (fun _ _ _ _ _ h => h) (fun _ h => h) rfl
  cases move with
  | started =>
    unfold runStarted
    split
    · exact .inr (.inl rfl)
    · exact .inl rfl
  | opened svc m =>
    left
    rw [settled]
    unfold segmentOpened
    split <;> rfl
  | closed svc m =>
    left
    rw [settled]
    unfold segmentClosed
    split <;> rfl
  | ended svc e =>
    left
    unfold runEnded
    split
    · rfl
    · rfl
    · rfl
    · exact drainFrom_keeps (P := fun w => w.record = x.record) (fun _ _ _ _ _ h => h) (fun _ h => h) _ _ rfl
  | frame m f =>
    left
    unfold takeFrame
    split <;> rfl
  | judgment svc m j =>
    left
    rw [settled]
    unfold takeJudgment
    split <;> rfl
  | tick svc t =>
    left
    rw [settled]
    unfold takeTick
    split <;> rfl
  | completed svc =>
    exact .inl (completeDue_keeps (P := fun w => w.record = x.record) (fun _ _ _ _ _ h => h) (fun _ h => h) rfl)
  | summaries | surveyStarted | surveyStopped | warm => exact .inl rfl
  | power i => exact .inr (.inr ⟨i, rfl⟩)

end MeterSvc

theorem exec_keeps_meters {c : Instr} {s t : State} (h : exec c s = .next t) (good : ∀ i : Svc, s.meter[i].Good) (i : Svc) :
    t.meter[i].Good := by
  rcases exec_meterMoves h i with e | move
  · rw [e]
    exact good i
  · exact (good i).move move

end Sys2Proof.Machine
end

section
/-!
The checker's half of O29, and the ranges of the service records that the blocks took.
-/

namespace Sys2Proof.Machine

namespace CheckerSvc

variable {P : CheckerSvc → Prop} {svc : Svc} {x y : CheckerSvc} {profiles : Vector Profile 8}

/-- What combining a due result and sending summaries keep, the combination of all that is due keeps. -/
theorem combineDue_keeps
    (combined : ∀ (x : CheckerSvc) r p g, g ∈ x.segments → P x →
      P { x with
          held := x.held.erase r, presence := x.presence.erase p
          segments := x.segments.map fun e => if e.inst = g.inst then (g.combine svc profiles[g.profile] r p).1 else e })
    (sent : ∀ x, P x → P (x.sendSummaries svc).1) (hx : P x) : P (x.combineDue svc profiles).1 := by
  unfold combineDue
  split
  · exact hx
  · next r p g due =>
    refine sent _ (combined x r p g ?_ hx)
    obtain ⟨_, _, found⟩ := List.exists_of_findSome?_eq_some due
    split at found
    · next segment _ =>
      simp only [Option.some.injEq, Prod.mk.injEq] at found
      rw [← found.2.2]
      exact List.mem_of_find?_eq_some segment
    · cases found

theorem combineAll_keeps
    (combined : ∀ (x : CheckerSvc) r p g, g ∈ x.segments → P x →
      P { x with
          held := x.held.erase r, presence := x.presence.erase p
          segments := x.segments.map fun e => if e.inst = g.inst then (g.combine svc profiles[g.profile] r p).1 else e })
    (sent : ∀ x, P x → P (x.sendSummaries svc).1) (fuel : Nat) (hx : P x) : P (combineAll svc profiles fuel x).1 := by
  induction fuel generalizing x with
  | zero => exact hx
  | succ fuel ih =>
    unfold combineAll
    split
    · exact hx
    · exact ih (combineDue_keeps combined sent hx)

theorem settle_keeps
    (combined : ∀ (x : CheckerSvc) r p g, g ∈ x.segments → P x →
      P { x with
          held := x.held.erase r, presence := x.presence.erase p
          segments := x.segments.map fun e => if e.inst = g.inst then (g.combine svc profiles[g.profile] r p).1 else e })
    (sent : ∀ x, P x → P (x.sendSummaries svc).1) (hx : P x) : P (x.settle svc profiles).1 :=
  combineAll_keeps combined sent _ (sent x hx)

theorem evaluateFrom_eq (count : Nat) (m : Mi) (x : CheckerSvc) :
    evaluateFrom count m x = { x with presence := (evaluateFrom count m x).presence } := by
  induction count generalizing m x with
  | zero => rfl
  | succ count ih =>
    unfold evaluateFrom
    rw [ih]
    rfl

/-- What one command makes of one service's checker, under the service record `r`. -/
inductive Move (r : ServiceRecord) (x : CheckerSvc) : CheckerSvc → Prop where
  | started : Move r x (x.runStarted r)
  | opened (svc : Svc) (m : SegOpened) (profiles : Vector Profile 8) : Move r x ((x.segmentOpened m).settle svc profiles).1
  | closed (svc : Svc) (m : SegClosed) (profiles : Vector Profile 8) : Move r x ((x.segmentClosed m).settle svc profiles).1
  | ended (svc : Svc) (profiles : Vector Profile 8) (e : Option Mi) : Move r x (x.runEnded svc profiles e).1
  | packet (svc : Svc) (p : CaptionPacket) : Move r x (x.takePacket svc p).1
  | tick (svc : Svc) (profiles : Vector Profile 8) (t : Mi) : Move r x (x.takeTick svc profiles t).1
  | rowExpiry (row : Fin 16) : Move r x { x with rows := x.rows.set row (expireRow x.rows[row]) }
  | streamExpiry (svc : Svc) : Move r x (x.expireStream svc).1
  | result (svc : Svc) (m : MiResult) (profiles : Vector Profile 8) : Move r x ((x.takeResult m).settle svc profiles).1
  | combined (svc : Svc) (profiles : Vector Profile 8) : Move r x (x.combineDue svc profiles).1
  | summaries (svc : Svc) : Move r x (x.sendSummaries svc).1
  | warm : Move r x x.warmReset
  | power (i : Svc) : Move r x (CheckerSvc.powerOn i)

end CheckerSvc

/-- Every service's checker is as it was, or has made a move. -/
def State.CheckerMoves (s t : State) : Prop := ∀ i : Svc, t.checker[i] = s.checker[i] ∨ s.checker[i].Move s.map[i] t.checker[i]

namespace State.CheckerMoves

variable {s t : State}

theorem of_eq (h : t.checker = s.checker) : CheckerMoves s t := fun i => .inl (by rw [h])

theorem of_set {i : Svc} {y : CheckerSvc} (h : s.checker[i].Move s.map[i] y) (e : t.checker = s.checker.set i y) :
    CheckerMoves s t := by
  intro j
  rw [e]
  by_cases hj : j = i
  · subst hj
    exact .inr (by simpa using h)
  · have : (i : Nat) ≠ j := fun h => hj (Fin.ext h.symm)
    exact .inl (by simp [this])

end State.CheckerMoves

theorem State.foldl_checkerTick (s : State) (t : Mi) (i : Svc) :
    (allSvcs.foldl (fun x i => x.checkerDoes i (x.checker[i].takeTick i x.compliance.profiles t)) s).checker[i] =
      (s.checker[i].takeTick i s.compliance.profiles t).1 := by
  rw [State.foldl_each State.checker (g := fun u i => (u.checker[i].takeTick i u.compliance.profiles t).1) (fun _ _ => rfl)
    (fun u i j h => ?_) allSvcs_nodup, if_pos (mem_allSvcs i)]
  have ne : (i : Nat) ≠ j := fun e => h (Fin.ext e.symm)
  simp [State.checkerDoes, ne]

open State.CheckerMoves in
theorem exec_checker_moves {c : Instr} {s t : State} (hc : c.part = .checker) (h : exec c s = .next t) :
    State.CheckerMoves s t := by
  cases c <;> cases hc <;> obtain rfl := Host.Outcome.next.inj h
  case checkerRunStarted i => exact of_set (i := i) .started rfl
  case checkerSegmentOpened i m => exact of_set (i := i) (.opened i m _) rfl
  case checkerSegmentClosed i m => exact of_set (i := i) (.closed i m _) rfl
  case checkerRunEnded i e => exact of_set (i := i) (.ended i _ e) rfl
  case checkerCaptionPacket i p => exact of_set (i := i) (.packet i p) rfl
  case checkerMiTick m =>
    intro i
    rw [State.foldl_checkerTick]
    exact .inr (.tick i _ m)
  case rowPersistenceExpiry i row => exact of_set (i := i) (.rowExpiry row) rfl
  case captionStreamExpiry i =>
    split
    · exact of_eq rfl
    · exact of_set (i := i) (.streamExpiry i) rfl
  case miResult i m => exact of_set (i := i) (.result i m _) rfl
  case captionCombination i => exact of_set (i := i) (.combined i _) rfl
  case captionSummary i => exact of_set (i := i) (.summaries i) rfl

theorem State.warmed_checker (s : State) (rq : Req) (straps : Straps) :
    (s.warmed rq straps).checker = mapVec CheckerSvc.warmReset s.checker := by
  have measured (u : State) : u.warmMeasures.checker = mapVec CheckerSvc.warmReset u.checker := rfl
  have strapped (u : State) : (u.warmPorts straps).checker = u.checker := rfl
  unfold State.warmed
  rw [strapped, (Frame.warmBank _).checker (by decide), (Frame.warmRecorder _).checker (by decide), measured,
    (Frame.warmSchedule _).checker (by decide), (Frame.dropRunStarted .ports _).checker (by decide),
    (Frame.warmRouter _).checker (by decide), (Frame.passServed .ports _).checker (by decide)]

theorem exec_checkerMoves {c : Instr} {s t : State} (h : exec c s = .next t) : State.CheckerMoves s t := by
  rcases exec_cases h with ⟨_, frame⟩ | ⟨straps, rfl⟩ | ⟨rq, straps, rfl⟩
  · by_cases checker : c.part = .checker
    · exact exec_checker_moves checker h
    · exact .of_eq (frame.checker checker)
  · intro i
    have power : State.reset.checker[i] = CheckerSvc.powerOn i := by simp [State.reset]
    exact .inr (power ▸ .power i)
  · intro i
    rw [State.respond_checker, State.warmed_checker, mapVec_fin]
    exact .inr .warm

/-! ### Tallies, rows and timers (R79, R81, R82, R87, R88) -/

theorem CaptionSegment.balanced_ofOpened (m : SegOpened) : (CaptionSegment.ofOpened m).Balanced := by
  simp [CaptionSegment.Balanced, CaptionSegment.ofOpened]

/-- R87: each tally is raised only where the wider one is. -/
theorem CaptionSegment.Balanced.tally {g : CaptionSegment} (h : g.Balanced) {r : MiResult} {w : Presence}
    (silent : (r.judged && r.audible) = false) : (g.tally r w).Balanced := by
  obtain ⟨covered, audible, judged, lost, run, gaps, first, counted⟩ := h
  simp only [CaptionSegment.tally, silent, Bool.false_and, Bool.false_eq_true, if_false]
  refine ⟨covered, ?_, ?_, ?_, run, gaps, first, counted⟩
  · dsimp only
    split <;> omega
  · dsimp only
    split <;> omega
  · dsimp only
    split <;> omega

/-- R88: an audible MI without captions extends the gap run, one with captions ends it. -/
theorem CaptionSegment.Balanced.combine {g : CaptionSegment} (h : g.Balanced) (svc : Svc) (p : Profile) (r : MiResult)
    (w : Presence) : (g.combine svc p r w).1.Balanced := by
  have wide := h
  obtain ⟨covered, audible, judged, lost, run, gaps, first, counted⟩ := h
  unfold CaptionSegment.combine
  dsimp only
  split
  · next heard =>
    obtain ⟨isJudged, isAudible⟩ := Bool.and_eq_true_iff.mp heard
    have lost' : (if w.lost = true then g.lost + 1 else g.lost) ≤ g.combined + 1 := by split <;> omega
    split
    · next present =>
      simp only [CaptionSegment.tally, CaptionSegment.endRun, isJudged, isAudible, present, Bool.and_self, if_true]
      exact ⟨by dsimp only; omega, by dsimp only; omega, by dsimp only; omega, lost', Nat.zero_le _, by dsimp only; omega,
        by simp, by simp⟩
    · next absent =>
      have extended : ((g.tally r w).extendRun r.mi).Balanced := by
        simp only [CaptionSegment.tally, CaptionSegment.extendRun, isJudged, isAudible, absent, Bool.and_self, Bool.and_false,
          if_true, Bool.false_eq_true, if_false]
        refine ⟨by dsimp only; omega, by dsimp only; omega, by dsimp only; omega, lost', Nat.le_max_right .., ?_, ?_, ?_⟩
        · dsimp only
          omega
        · dsimp only
          split
          · simp
          · next going => simp [first, Nat.pos_of_ne_zero going]
        · exact fun _ => Nat.succ_pos _
      split
      · obtain ⟨c, a, j, l, r, s, f, _⟩ := extended
        exact ⟨c, a, j, l, r, s, f, fun _ => Nat.succ_pos _⟩
      · exact extended
  · next silent => exact wide.tally (by simpa using silent)

namespace CheckerSvc

variable {svc : Svc} {x y : CheckerSvc} {profiles : Vector Profile 8}

/-- R79, R82: what the rows hold. -/
def GoodRows (rows : Vector (Option RowText) 16) : Prop := ∀ r : Fin 16, ∀ t, rows[r] = some t → t.Good

theorem goodRows_clear : GoodRows (Vector.replicate 16 none) := by
  intro r t h
  simp at h

theorem GoodRows.set {rows : Vector (Option RowText) 16} (h : GoodRows rows) (r : Fin 16) {o : Option RowText}
    (ho : ∀ t, o = some t → t.Good) : GoodRows (rows.set r o) :=
  Bank.forall_getElem_set (P := fun o => ∀ t, o = some t → RowText.Good t) h r ho

/-- R82: a row that was counted down and did not expire. -/
theorem good_expireRow_countRow {o : Option RowText} (h : ∀ t, o = some t → t.Good) :
    ∀ t, expireRow (countRow o) = some t → t.Good := by
  intro t e
  match o, h with
  | none, _ => cases e
  | some ⟨none, c⟩, h =>
    obtain rfl := Option.some.inj e
    exact h _ rfl
  | some ⟨some 0, c⟩, _ => cases e
  | some ⟨some 1, c⟩, _ => cases e
  | some ⟨some (n + 2), c⟩, h =>
    obtain rfl := Option.some.inj e
    obtain ⟨low, high, persistence⟩ := h _ rfl
    refine ⟨low, high, fun k hk => ?_⟩
    obtain rfl := Option.some.inj hk
    have := persistence _ rfl
    omega

theorem good_expireRow {o : Option RowText} (h : ∀ t, o = some t → t.Good) : ∀ t, expireRow o = some t → t.Good := by
  intro t e
  unfold expireRow at e
  split at e
  · cases e
  · exact h t e

theorem good_iff (x : CheckerSvc) :
    x.Good ↔ x.timer ≤ x.record.streamTimeout ∧ (x.run ≠ .idle → x.isLost = false → 0 < x.timer) ∧ GoodRows x.rows ∧
      ∀ g ∈ x.segments, g.Balanced := Iff.rfl

theorem Good.sendSummaries (h : x.Good) (svc : Svc) : (x.sendSummaries svc).1.Good := by
  obtain ⟨timeout, timer, rows, segments⟩ := h
  exact ⟨timeout, timer, rows, fun g hg => segments g (List.mem_of_mem_filter hg)⟩

theorem Good.combined (h : x.Good) {g : CaptionSegment} (hg : g ∈ x.segments) (svc : Svc) (p : Profile) (r : MiResult)
    (w : Presence) :
    ({ x with
      held := x.held.erase r, presence := x.presence.erase w
      segments := x.segments.map fun e => if e.inst = g.inst then (g.combine svc p r w).1 else e } : CheckerSvc).Good := by
  obtain ⟨timeout, timer, rows, segments⟩ := h
  refine ⟨timeout, timer, rows, fun e he => ?_⟩
  obtain ⟨e₀, mem, rfl⟩ := List.mem_map.mp he
  split
  · exact (segments g hg).combine ..
  · exact segments e₀ mem

theorem Good.combineDue (h : x.Good) (svc : Svc) (profiles : Vector Profile 8) : (x.combineDue svc profiles).1.Good :=
  combineDue_keeps (fun _ r p _ hg hx => hx.combined hg svc _ r p) (fun _ hx => hx.sendSummaries svc) h

theorem Good.settle (h : x.Good) (svc : Svc) (profiles : Vector Profile 8) : (x.settle svc profiles).1.Good :=
  settle_keeps (fun _ r p _ hg hx => hx.combined hg svc _ r p) (fun _ hx => hx.sendSummaries svc) h

theorem Good.segmentOpened (h : x.Good) (m : SegOpened) : (x.segmentOpened m).Good := by
  unfold CheckerSvc.segmentOpened
  obtain ⟨timeout, timer, rows, segments⟩ := h
  have more : ∀ g ∈ x.segments ++ [CaptionSegment.ofOpened m], g.Balanced :=
    List.forall_mem_append.mpr ⟨segments, by simpa using CaptionSegment.balanced_ofOpened m⟩
  split
  · exact ⟨timeout, timer, rows, segments⟩
  · next waiting => exact ⟨timeout, fun _ => timer (by simp [waiting]), rows, more⟩
  · next measuring => exact ⟨timeout, timer, rows, more⟩

theorem Good.segmentClosed (h : x.Good) (m : SegClosed) : (x.segmentClosed m).Good := by
  obtain ⟨timeout, timer, rows, segments⟩ := h
  refine ⟨timeout, timer, rows, fun g hg => ?_⟩
  obtain ⟨g₀, mem, rfl⟩ := List.mem_map.mp hg
  split <;> exact segments g₀ mem

theorem Good.flush (h : x.Good) (e : Mi) : (x.flush e).Good := by
  unfold CheckerSvc.flush
  dsimp only
  rw [evaluateFrom_eq]
  exact h

theorem Good.runEnded (h : x.Good) (svc : Svc) (profiles : Vector Profile 8) (e : Option Mi) :
    (x.runEnded svc profiles e).1.Good := by
  have ended {z : CheckerSvc} (hz : z.Good) : { z.discardUncovered with run := .idle }.Good :=
    ⟨hz.1, fun ne => absurd rfl ne, hz.2.2⟩
  unfold CheckerSvc.runEnded
  split
  · exact h
  · exact ended h
  · exact h
  · exact ended ((h.flush _).settle svc profiles)

/-- R76: the characters of a well-formed packet. -/
theorem count_le_of_wellFormed {p : CaptionPacket} (h : wellFormedPacket p = true) : p.count ≤ 42 := by
  simp only [wellFormedPacket, Bool.and_eq_true, decide_eq_true_eq] at h
  exact h.1.2

theorem good_text {p : CaptionPacket} (h : wellFormedPacket p = true) (some_text : p.count ≠ 0) :
    RowText.Good ⟨persistenceOf p.duration, p.count⟩ := by
  refine ⟨Nat.pos_of_ne_zero some_text, count_le_of_wellFormed h, fun n hn => ?_⟩
  obtain ⟨d, _, rfl⟩ := Option.map_eq_some_iff.mp hn
  exact clampNat_mem (by decide) d

theorem takeRows_good {p : CaptionPacket} (wellFormed : wellFormedPacket p = true) (h : x.Good) : (x.takeRows p).Good := by
  obtain ⟨timeout, timer, rows, segments⟩ := h
  unfold takeRows takeText takeErase
  split
  · split
    · exact ⟨timeout, timer, rows, segments⟩
    · split
      · exact ⟨timeout, timer, GoodRows.set rows _ nofun, segments⟩
      · next some_text =>
        refine ⟨timeout, timer, GoodRows.set rows _ fun t e => ?_, segments⟩
        obtain rfl := Option.some.inj e
        exact good_text wellFormed some_text
  · split
    · split
      · exact ⟨timeout, timer, goodRows_clear, segments⟩
      · split
        · exact ⟨timeout, timer, rows, segments⟩
        · exact ⟨timeout, timer, GoodRows.set rows _ nofun, segments⟩
    · exact ⟨timeout, timer, rows, segments⟩

theorem Good.takePacket (h : x.Good) (record : x.record.Good) (svc : Svc) (p : CaptionPacket) : (x.takePacket svc p).1.Good := by
  unfold CheckerSvc.takePacket
  split
  · exact h
  · split
    · next wellFormed =>
      refine takeRows_good wellFormed ⟨Nat.le_refl _, fun _ _ => ?_, h.2.2⟩
      exact Nat.lt_of_lt_of_le (by decide) record.2.2.2.2.1
    · exact h

/-- R81: the expiry leaves no stream that is not LOST with its timer at 0. -/
theorem expireStream_good (timeout : x.timer ≤ x.record.streamTimeout) (rows : GoodRows x.rows)
    (segments : ∀ g ∈ x.segments, g.Balanced) (svc : Svc) : (x.expireStream svc).1.Good := by
  unfold expireStream
  split
  · split
    · exact ⟨timeout, fun _ found => by simp [isLost] at found, goodRows_clear, segments⟩
    · exact ⟨timeout, fun _ found => by simp [isLost] at found, goodRows_clear, segments⟩
    · next gone => exact ⟨timeout, fun _ found => by simp [isLost, gone] at found, rows, segments⟩
    · next gone => exact ⟨timeout, fun _ found => by simp [isLost, gone] at found, rows, segments⟩
  · next running => exact ⟨timeout, fun _ _ => Nat.pos_of_ne_zero running, rows, segments⟩

theorem Good.countRows (h : x.Good) : x.countRows.Good := by
  refine ⟨h.1, h.2.1, fun r t e => ?_, h.2.2.2⟩
  rw [CheckerSvc.countRows, mapVec_fin] at e
  exact good_expireRow_countRow (h.2.2.1 r) t e

theorem Good.countTimer_expireStream (h : x.Good) (svc : Svc) : (x.countTimer.expireStream svc).1.Good := by
  obtain ⟨timeout, _, rows, segments⟩ := h
  unfold countTimer
  split
  · exact expireStream_good timeout rows segments svc
  · exact expireStream_good (x := { x with timer := x.timer - 1 }) ((Nat.sub_le ..).trans timeout) rows segments svc

theorem Good.takeTick (h : x.Good) (svc : Svc) (profiles : Vector Profile 8) (t : Mi) : (x.takeTick svc profiles t).1.Good := by
  have counted {z : CheckerSvc} (hz : z.Good) : { z with textSeen := false, lastTick := some t : CheckerSvc }.Good := hz
  have evaluated : (x.evaluate (miPrev t)).Good := h
  unfold CheckerSvc.takeTick
  split
  · exact h
  · exact (counted (evaluated.settle svc profiles)).countRows.countTimer_expireStream svc

theorem Good.takeResult (h : x.Good) (m : MiResult) : (x.takeResult m).Good := by
  unfold CheckerSvc.takeResult
  split <;> exact h

theorem good_of_cleared (run : x.run = .idle) (timer : x.timer = 0) (rows : x.rows = Vector.replicate 16 none)
    (segments : x.segments = []) : x.Good := by
  rw [good_iff, timer, rows, segments]
  exact ⟨Nat.zero_le _, fun ne => absurd run ne, goodRows_clear, by simp⟩

theorem Good.move {r : ServiceRecord} (hr : r.Good) (record : x.record.Good) (move : x.Move r y) (h : x.Good) : y.Good := by
  cases move with
  | started =>
    unfold runStarted
    split
    · refine ⟨Nat.le_refl _, fun _ _ => ?_, goodRows_clear, h.2.2.2⟩
      exact Nat.lt_of_lt_of_le (by decide) hr.2.2.2.2.1
    · exact h
  | opened svc m profiles => exact (h.segmentOpened m).settle svc profiles
  | closed svc m profiles => exact (h.segmentClosed m).settle svc profiles
  | ended svc profiles e => exact h.runEnded svc profiles e
  | packet svc p => exact h.takePacket record svc p
  | tick svc profiles t => exact h.takeTick svc profiles t
  | rowExpiry row => exact ⟨h.1, h.2.1, GoodRows.set h.2.2.1 row (good_expireRow (h.2.2.1 row)), h.2.2.2⟩
  | streamExpiry svc => exact expireStream_good h.1 h.2.2.1 h.2.2.2 svc
  | result svc m profiles => exact (h.takeResult m).settle svc profiles
  | combined svc profiles => exact h.combineDue svc profiles
  | summaries svc => exact h.sendSummaries svc
  | warm | power => exact good_of_cleared rfl rfl rfl rfl

/-- R13: the checker takes the service record at run started, and keeps it. -/
theorem Move.record {r : ServiceRecord} (move : x.Move r y) :
    y.record = x.record ∨ y.record = r ∨ ∃ i, y.record = ServiceRecord.powerOn i := by
  have settled (z : CheckerSvc) (svc : Svc) (profiles : Vector Profile 8) : (z.settle svc profiles).1.record = z.record :=
    settle_keeps (P := fun w => w.record = z.record) (fun _ _ _ _ _ h => h) (fun _ h => h) rfl
  have expired (z : CheckerSvc) (svc : Svc) : (z.expireStream svc).1.record = z.record := by
    unfold expireStream
    split
    · split <;> rfl
    · rfl
  cases move with
  | started =>
    unfold runStarted
    split
    · exact .inr (.inl rfl)
    · exact .inl rfl
  | opened svc m profiles =>
    left
    rw [settled]
    unfold segmentOpened
    split <;> rfl
  | closed svc m profiles => exact .inl (settled ..)
  | ended svc profiles e =>
    left
    unfold runEnded
    split
    · rfl
    · rfl
    · rfl
    · refine (settled ..).trans ?_
      unfold flush
      dsimp only
      rw [evaluateFrom_eq]
  | packet svc p =>
    left
    unfold takePacket takeRows takeText takeErase
    split
    · rfl
    · split
      · dsimp only
        split
        · split
          · rfl
          · split <;> rfl
        · split
          · split
            · rfl
            · split <;> rfl
          · rfl
      · rfl
  | tick svc profiles t =>
    left
    unfold takeTick
    split
    · rfl
    · refine (expired ..).trans ?_
      unfold countTimer
      split <;> exact settled ..
  | streamExpiry svc => exact .inl (expired ..)
  | result svc m profiles =>
    left
    rw [settled]
    unfold takeResult
    split <;> rfl
  | combined svc profiles =>
    exact .inl (combineDue_keeps (P := fun w => w.record = x.record) (fun _ _ _ _ _ h => h) (fun _ h => h) rfl)
  | rowExpiry | summaries | warm => exact .inl rfl
  | power i => exact .inr (.inr ⟨i, rfl⟩)

end CheckerSvc

/-! ### The service records (R12, R13) -/

/-- R14: what CONFIGURE SERVICE stores lies in range. -/
theorem readServiceArgs_good {a : ServiceArgs} {r : Clamped ServiceRecord} (h : readServiceArgs a = some r) : r.val.Good := by
  unfold readServiceArgs at h
  obtain ⟨lane, _, h⟩ := Option.bind_eq_some_iff.mp h
  obtain ⟨l, _, h⟩ := Option.bind_eq_some_iff.mp h
  obtain ⟨channels, list, h⟩ := Option.bind_eq_some_iff.mp h
  obtain ⟨captionLane, _, h⟩ := Option.bind_eq_some_iff.mp h
  obtain ⟨stream, _, h⟩ := Option.bind_eq_some_iff.mp h
  obtain ⟨mask, _, h⟩ := Option.bind_eq_some_iff.mp h
  obtain ⟨floor, _, h⟩ := Option.bind_eq_some_iff.mp h
  obtain ⟨timeout, _, h⟩ := Option.bind_eq_some_iff.mp h
  obtain ⟨proxy, _, h⟩ := Option.bind_eq_some_iff.mp h
  obtain ⟨normal, _, h⟩ := Option.bind_eq_some_iff.mp h
  obtain ⟨reduced, _, h⟩ := Option.bind_eq_some_iff.mp h
  obtain ⟨rec0, _, h⟩ := Option.bind_eq_some_iff.mp h
  obtain ⟨recording, _, h⟩ := Option.bind_eq_some_iff.mp h
  obtain ⟨priority, _, h⟩ := Option.bind_eq_some_iff.mp h
  obtain ⟨ow0, _, h⟩ := Option.bind_eq_some_iff.mp h
  obtain ⟨overwrite, _, h⟩ := Option.bind_eq_some_iff.mp h
  obtain ⟨pf0, _, h⟩ := Option.bind_eq_some_iff.mp h
  obtain ⟨profile, _, h⟩ := Option.bind_eq_some_iff.mp h
  obtain ⟨planned, _, h⟩ := Option.bind_eq_some_iff.mp h
  obtain ⟨guardMi, _, h⟩ := Option.bind_eq_some_iff.mp h
  obtain rfl := Option.some.inj h
  have length : channels.val.length = l.length ∧ 1 ≤ l.length ∧ l.length ≤ 6 := by
    unfold channelList at list
    split at list
    · cases list
    · next fits =>
      obtain rfl := Option.some.inj list
      refine ⟨by simp, by omega, by omega⟩
  obtain ⟨floorLow, floorHigh⟩ := clampInt_mem (lo := -700) (hi := 0) (by decide) floor
  obtain ⟨timeoutLow, timeoutHigh⟩ := clampNat_mem (lo := 10) (hi := 600) (by decide) timeout
  obtain ⟨plannedLow, plannedHigh⟩ := clampNat_mem (lo := 600) (hi := 36000) (by decide) planned
  exact ⟨length.1 ▸ length.2.1, length.1 ▸ length.2.2, floorLow, floorHigh, timeoutLow, timeoutHigh, plannedLow, plannedHigh,
    (clampNat_mem (by decide) guardMi).2⟩

theorem ServiceRecord.good_powerOn (i : Svc) : (ServiceRecord.powerOn i).Good := by
  simp [ServiceRecord.Good, ServiceRecord.powerOn]

/-- R13: the map changes by CONFIGURE SERVICE, which stores a record in range. -/
theorem exec_schedule_map {c : Instr} {s t : State} (hc : c.part = .schedule) (h : exec c s = .next t)
    (good : ∀ i : Svc, s.map[i].Good) (i : Svc) : t.map[i].Good := by
  have same {u : State} (e : u.map = s.map) : u.map[i].Good := by
    rw [e]
    exact good i
  have written {u : State} {j : Svc} {r : ServiceRecord} (hr : r.Good) (e : u.map = s.map.set j r) : u.map[i].Good := by
    rw [e]
    exact Bank.forall_getElem_set good j hr i
  cases c <;> cases hc <;> obtain rfl := Host.Outcome.next.inj h
  case configureService =>
    split
    · next j r _ read =>
      split
      · exact written (j := j) (readServiceArgs_good read) (State.respondOk_map ..)
      · exact same (by simp)
    · exact same (by simp)
  case withdraw | configureGroup =>
    split
    · exact same (by simp)
    · split
      · exact same (by simp)
      · exact same (by simp)
  case startService =>
    split
    · exact same (by simp)
    · split
      · exact same (by rw [State.respond_map]; rfl)
      · exact same (by simp)
  case stopService =>
    split
    · exact same (by simp)
    · split
      · exact same (by simp)
      · exact same (by simp)
  case stage =>
    split
    · split
      · exact same (by simp)
      · exact same (by simp)
    · exact same (by simp)
  case groupStage =>
    split
    · split
      · exact same (by simp)
      · dsimp only
        split
        · exact same (by simp)
        · rw [State.respondOk_map]
          refine same (State.foldl_induction (fun u => u.map = s.map) (fun u i hu => ?_) _ rfl)
          exact hu
    · exact same (by simp)
  case scheduleMiTick =>
    refine same (State.foldl_induction (fun u => u.map = s.map) (fun u i hu => ?_) _ rfl)
    rw [State.scheduleTick_map]
    exact hu
  case recordingStateChanged =>
    split <;> exact good i
  case meterSummaryArrival | captionSummaryArrival =>
    rw [State.settleClosing_eq]
    split
    · exact good i
    · exact same (by simp)

theorem exec_keeps_map {c : Instr} {s t : State} (h : exec c s = .next t) (good : ∀ i : Svc, s.map[i].Good) (i : Svc) :
    t.map[i].Good := by
  rcases exec_cases h with ⟨_, frame⟩ | ⟨straps, rfl⟩ | ⟨rq, straps, rfl⟩
  · by_cases schedule : c.part = .schedule
    · exact exec_schedule_map schedule h good i
    · rw [frame.map schedule]
      exact good i
  · have power : State.reset.map[i] = ServiceRecord.powerOn i := by simp [State.reset]
    exact power ▸ ServiceRecord.good_powerOn i
  · rw [State.respond_map]
    rw [s.warmed_keeps State.map (fun _ _ => rfl) (fun u => (State.Frame.passServed .ports u).map (by decide)) (fun _ => rfl)
      (fun u => by simp [State.warmSchedule]) (fun _ => rfl) (fun u => (State.Frame.warmRecorder u).map (by decide))
      (fun u => (State.Frame.warmBank u).map (by decide)) (fun _ _ => rfl) rq straps]
    exact good i

/-- The recorder of every service keeps the service record of its run, or has taken one of the map at run started. -/
def State.RecorderRecords (s t : State) : Prop :=
  ∀ i : Svc, t.recorder[i].record = s.recorder[i].record ∨ t.recorder[i].record = s.map[i] ∨
    ∃ j, t.recorder[i].record = ServiceRecord.powerOn j

theorem State.worked_record {s : State} {i : Svc} {w : Work} (h : (s.work i).Leaves w) (j : Svc) :
    (s.worked i w).recorder[j].record = s.recorder[j].record := by
  rw [State.worked_recorder]
  by_cases e : j = i
  · subst e
    simpa [State.work] using h.record
  · have ne : (i : Nat) ≠ j := fun h => e (Fin.ext h.symm)
    simp [ne]

theorem exec_store_records {c : Instr} {s t : State} (hc : c.part = .store) (h : exec c s = .next t) :
    State.RecorderRecords s t := by
  have same {u : State} (e : u.recorder = s.recorder) : State.RecorderRecords s u := fun i => .inl (by rw [e])
  have work {u : State} {i : Svc} {w : Work} (e : u.recorder = s.recorder) (l : (u.work i).Leaves w) :
      State.RecorderRecords s (u.worked i w) := fun j => .inl (by rw [State.worked_record l, e])
  cases c <;> cases hc <;> obtain rfl := Host.Outcome.next.inj h
  case recorderRunStarted i =>
    intro j
    by_cases e : j = i
    · subst e
      simp only [State.setRecorder, Fin.getElem_fin, Vector.getElem_set_self, RecorderSvc.runStarted]
      split
      · exact .inr (.inl rfl)
      · exact .inl rfl
    · have ne : (i : Nat) ≠ j := fun h => e (Fin.ext h.symm)
      exact .inl (by simp [State.setRecorder, ne])
  case onAirMessage => exact work rfl ((Work.Leaves.refl _).onAir _).settle
  case recorderRunEnded => exact work rfl ((Work.Leaves.refl _).runEnded _)
  case recorderSampleFrame | recorderJudgment | recorderCaptionPacket | recorderProxyFrame =>
    exact work rfl ((Work.Leaves.refl _).takeItem _).settle
  case recorderMiTick =>
    intro j
    left
    refine State.foldl_induction (fun u => u.recorder[j].record = s.recorder[j].record) (fun u i hu => ?_) _ rfl
    rw [State.worked_record ((Work.Leaves.refl _).takeTick _).settle]
    exact hu
  case spanBoundary => exact work rfl (Work.Leaves.refl _).boundary
  case configureStore =>
    split
    · exact same (by simp)
    · exact same (by simp)
  case setReserves =>
    split
    · exact same (by simp)
    · exact same (by rw [State.respondOk_recorder, State.testBacklog_recorder]; rfl)
  case createHold =>
    split
    · exact same (by simp)
    · split
      · exact same (by simp)
      · split
        · exact same (by simp)
        · exact same (by rw [State.respond_recorder]; rfl)
  case automaticHoldRequest =>
    split <;> exact same rfl
  case releaseHold =>
    split
    · exact same (by simp)
    · split
      · exact same (by simp)
      · split
        · exact same (by simp)
        · exact same (by rw [State.respond_recorder]; rfl)
  case fixHold =>
    split
    · exact same (by simp)
    · split
      · exact same (by simp)
      · exact same (by rw [State.respond_recorder]; rfl)
  case take =>
    split
    · exact same (by simp)
    · split
      · exact same (by simp)
      · split
        · exact same (by simp)
        · exact same (by rw [State.respondOk_recorder, State.testBacklog_recorder]; rfl)
  case confirm =>
    split
    · exact same (by simp)
    · split
      · exact same (by rw [State.respond_recorder]; rfl)
      · split
        · exact same (by simp)
        · exact same (by simp)
  case returnTake =>
    split
    · exact same (by simp)
    · split
      · exact same (by simp)
      · exact same (by rw [State.respond_recorder, State.testBacklog_recorder]; rfl)
  case archivePeriodEdge =>
    refine same (State.foldl_induction (fun u => u.recorder = s.recorder) (fun u t hu => ?_) _ rfl)
    unfold State.expireTake
    split
    · exact hu
    · rw [State.testBacklog_recorder]
      exact hu
  case takeTimerExpiry =>
    split
    · exact same rfl
    · split
      · unfold State.expireTake
        split
        · exact same rfl
        · exact same (by rw [State.testBacklog_recorder]; rfl)
      · exact same rfl

theorem State.warmRecorder_record (s : State) (i : Svc) : s.warmRecorder.recorder[i].record = s.recorder[i].record := by
  have kept : (allSvcs.foldl (fun x i => x.worked i ((x.work i).warmReset (x.around i))) s).recorder[i].record =
      s.recorder[i].record :=
    State.foldl_induction (fun u => u.recorder[i].record = s.recorder[i].record)
      (fun u j hu => (State.worked_record (Work.Leaves.refl _).warmReset i).trans hu) allSvcs rfl
  unfold State.warmRecorder
  rw [State.testBacklog_recorder]
  exact kept

theorem exec_recorderRecords {c : Instr} {s t : State} (h : exec c s = .next t) : State.RecorderRecords s t := by
  rcases exec_cases h with ⟨_, frame⟩ | ⟨straps, rfl⟩ | ⟨rq, straps, rfl⟩
  · by_cases store : c.part = .store
    · exact exec_store_records store h
    · exact fun i => .inl (by rw [frame.recorder store])
  · intro i
    exact .inr (.inr ⟨i, by simp [State.reset, RecorderSvc.powerOn]⟩)
  · intro i
    left
    rw [State.respond_recorder]
    exact s.warmed_keeps (fun u => u.recorder[i].record) (fun _ _ => rfl)
      (fun u => by rw [(State.Frame.passServed .ports u).recorder (by decide)]) (fun _ => rfl)
      (fun u => by rw [(State.Frame.warmSchedule u).recorder (by decide)]) (fun _ => rfl) (fun u => u.warmRecorder_record i)
      (fun u => by rw [(State.Frame.warmBank u).recorder (by decide)]) (fun _ _ => rfl) rq straps

theorem exec_keeps_records {c : Instr} {s t : State} (h : exec c s = .next t) (good : s.GoodRecords) : t.GoodRecords := by
  intro i
  obtain ⟨map, meter, checker, recorder⟩ := good i
  have taken {r q : ServiceRecord} (hq : q.Good) (cases : r = q ∨ r = s.map[i] ∨ ∃ j, r = ServiceRecord.powerOn j) : r.Good := by
    rcases cases with rfl | rfl | ⟨j, rfl⟩
    · exact hq
    · exact map
    · exact ServiceRecord.good_powerOn j
  refine ⟨exec_keeps_map h (fun j => (good j).1) i, ?_, ?_, taken recorder (exec_recorderRecords h i)⟩
  · rcases exec_meterMoves h i with e | move
    · rwa [e]
    · exact taken meter move.record
  · rcases exec_checkerMoves h i with e | move
    · rwa [e]
    · exact taken checker move.record

theorem exec_keeps_checkers {c : Instr} {s t : State} (h : exec c s = .next t)
    (good : s.GoodRecords ∧ ∀ i : Svc, s.checker[i].Good) : t.GoodRecords ∧ ∀ i : Svc, t.checker[i].Good := by
  obtain ⟨records, checkers⟩ := good
  refine ⟨exec_keeps_records h records, fun i => ?_⟩
  rcases exec_checkerMoves h i with e | move
  · rw [e]
    exact checkers i
  · exact (checkers i).move (records i).1 (records i).2.2.1 move

/-- Settles O29: what each move of a meter and of a checker keeps, the checker's with the ranges of the service records. -/
theorem everyStepKeepsMeterAndCheckerBalanced : Obligations.EveryStepKeepsMeterAndCheckerBalanced := by
  unfold Obligations.EveryStepKeepsMeterAndCheckerBalanced
  refine ⟨fun _ _ good h => ?_, fun _ _ records checkers h => ?_⟩
  · exact step_keeps (P := fun s => ∀ i : Svc, s.meter[i].Good) (fun _ _ h => h) exec_keeps_meters h good
  · exact step_keeps (P := fun s => s.GoodRecords ∧ ∀ i : Svc, s.checker[i].Good) (fun _ _ h => h) exec_keeps_checkers h
      ⟨records, checkers⟩

end Sys2Proof.Machine
end

section
/-!
The clip index and the hold counts (O44): the pool of GAP and LOST entries through each message, and the live holds that cover a slot.
-/

namespace Sys2Proof.Machine

/-! ### The clip index (R153 to R155) -/

/-- R153: the entry placed, and what was there at another start. -/
theorem mem_placeEntry_iff {e f : ClipEntry} {l : List ClipEntry} (h : l.Pairwise fun a b => a.start < b.start) :
    f ∈ placeEntry e l ↔ f = e ∨ (f ∈ l ∧ f.start ≠ e.start) := by
  induction l with
  | nil => simp [placeEntry]
  | cons g l ih =>
    obtain ⟨hg, hl⟩ := List.pairwise_cons.mp h
    unfold placeEntry
    split
    · next below =>
      simp only [List.mem_cons, ih hl]
      constructor
      · rintro (rfl | rfl | ⟨mem, ne⟩)
        · exact .inr ⟨.inl rfl, Nat.ne_of_lt below⟩
        · exact .inl rfl
        · exact .inr ⟨.inr mem, ne⟩
      · rintro (rfl | ⟨rfl | mem, ne⟩)
        · exact .inr (.inl rfl)
        · exact .inl rfl
        · exact .inr (.inr ⟨mem, ne⟩)
    · split
      · next same =>
        have above : ∀ a ∈ l, a.start ≠ e.start := fun a ha => same ▸ Nat.ne_of_gt (hg a ha)
        simp only [List.mem_cons]
        constructor
        · rintro (rfl | mem)
          · exact .inl rfl
          · exact .inr ⟨.inr mem, above f mem⟩
        · rintro (rfl | ⟨rfl | mem, ne⟩)
          · exact .inl rfl
          · exact absurd same ne
          · exact .inr mem
      · next notBelow other =>
        have above : ∀ a ∈ g :: l, a.start ≠ e.start := by
          intro a ha
          rcases List.mem_cons.mp ha with rfl | ha
          · exact other
          · exact fun e => notBelow (Nat.lt_of_lt_of_eq (hg a ha) e)
        rw [List.mem_cons]
        exact or_congr_right ⟨fun mem => ⟨mem, above f mem⟩, fun mem => mem.1⟩

namespace ClipIndex

variable {x : ClipIndex} {i : Svc} {start : Mi}

/-- R155: the list of a service has a GAP or a LOST entry at a start. -/
def Pooled (l : List ClipEntry) (m : Mi) : Prop := (⟨m, .gap⟩ : ClipEntry) ∈ l ∨ (⟨m, .lost⟩ : ClipEntry) ∈ l

/-- The form of the index but for the entry of service `i` at `start`, which is not in the pool. -/
structure GoodBut (x : ClipIndex) (i : Svc) (start : Mi) : Prop where
  rising : ∀ j : Svc, (x.lists[j]).Pairwise fun a b => a.start < b.start
  length : x.pool.length ≤ 2048
  nodup : x.pool.Nodup
  absent : (i, start) ∉ x.pool
  pooled : ∀ (j : Svc) (m : Mi), (j, m) ≠ (i, start) → ((j, m) ∈ x.pool ↔ Pooled x.lists[j] m)

/-- R155: one that is replaced leaves the pool. -/
theorem Good.leavePool (h : x.Good) (i : Svc) (start : Mi) : (x.leavePool i start).GoodBut i start := by
  obtain ⟨rising, length, nodup, pooled⟩ := h
  refine ⟨rising, (List.length_filter_le ..).trans length, nodup.filter _, ?_, fun j m ne => ?_⟩
  · simp [ClipIndex.leavePool]
  · have other : (j, m) ∈ (x.leavePool i start).pool ↔ (j, m) ∈ x.pool := by
      have differs : ¬ (j = i ∧ m = start) := fun h => ne (Prod.ext h.1 h.2)
      simp [ClipIndex.leavePool, ← not_and_or, differs]
    exact other.trans (pooled j m)

/-- R154: a list of service `i` that differs from the old one at `start` alone, where its entry stands in the pool or is none of
its kinds. -/
theorem GoodBut.setList (h : x.GoodBut i start) {l : List ClipEntry} (rising : l.Pairwise fun a b => a.start < b.start)
    (others : ∀ m, m ≠ start → (Pooled l m ↔ Pooled x.lists[i] m)) {pool : List (Svc × Mi)}
    (entered : (¬ Pooled l start ∧ pool = x.pool) ∨ (Pooled l start ∧ pool = x.pool ++ [(i, start)] ∧ x.pool.length < 2048)) :
    (({ x with pool := pool }).setList i l).Good := by
  have listed (j : Svc) : ((({ x with pool := pool }).setList i l).lists[j]) = if j = i then l else x.lists[j] := by
    by_cases e : j = i
    · subst e
      simp [ClipIndex.setList]
    · have ne : (i : Nat) ≠ j := fun h => e (Fin.ext h.symm)
      simp [ClipIndex.setList, e, ne]
  have old (j : Svc) (m : Mi) (ne : (j, m) ≠ (i, start)) :
      (j, m) ∈ x.pool ↔ Pooled (({ x with pool := pool }).setList i l).lists[j] m := by
    rw [h.pooled j m ne, listed]
    split
    · next e =>
      subst e
      exact (others m fun e => ne (by rw [e])).symm
    · exact Iff.rfl
  refine ⟨fun j => ?_, ?_⟩
  · rw [listed]
    split
    · exact rising
    · exact h.rising j
  · have here : Pooled (({ x with pool := pool }).setList i l).lists[i] start ↔ Pooled l start := by rw [listed, if_pos rfl]
    rcases entered with ⟨out, rfl⟩ | ⟨into, rfl, room⟩
    · refine ⟨h.length, h.nodup, fun j m => ?_⟩
      by_cases e : (j, m) = (i, start)
      · obtain ⟨rfl, rfl⟩ := Prod.mk.inj e
        exact iff_of_false h.absent (mt here.mp out)
      · exact old j m e
    · refine ⟨?_, ?_, fun j m => ?_⟩
      · show (x.pool ++ [(i, start)]).length ≤ 2048
        rw [List.length_append, List.length_singleton]
        omega
      · exact List.Nodup.append h.nodup (List.nodup_singleton _) (by simpa using h.absent)
      · show (j, m) ∈ x.pool ++ [(i, start)] ↔ _
        rw [List.mem_append, List.mem_singleton]
        by_cases e : (j, m) = (i, start)
        · obtain ⟨rfl, rfl⟩ := Prod.mk.inj e
          exact iff_of_true (.inr rfl) (here.mpr into)
        · rw [or_iff_left e]
          exact old j m e

/-- R155: the oldest entry of the pool leaves its list. -/
theorem GoodBut.dropOldest (h : x.GoodBut i start) : x.dropOldest.GoodBut i start := by
  unfold ClipIndex.dropOldest
  split
  · exact h
  · next p ps pool =>
    obtain ⟨rising, length, nodup, absent, pooled⟩ := h
    rw [pool] at length nodup absent pooled
    obtain ⟨fresh, nodup⟩ := List.nodup_cons.mp nodup
    have listed (j : Svc) : (x.lists.set p.1 (x.lists[p.1].filter fun e => e.start != p.2))[j] =
        if j = p.1 then x.lists[j].filter (fun e => e.start != p.2) else x.lists[j] := by
      by_cases e : j = p.1
      · subst e
        simp
      · have ne : (p.1 : Nat) ≠ j := fun h => e (Fin.ext h.symm)
        simp [e, ne]
    refine ⟨fun j => ?_, (Nat.le_succ _).trans length, nodup, fun mem => absent (List.mem_cons_of_mem p mem), fun j m ne => ?_⟩
    · rw [listed]
      split
      · exact (rising j).filter _
      · exact rising j
    · have both := pooled j m ne
      rw [listed]
      by_cases e : (j, m) = p
      · subst e
        exact iff_of_false fresh (by simp [Pooled])
      · rw [List.mem_cons, or_iff_right e] at both
        rw [both]
        split
        · next same =>
          have other : m ≠ p.2 := fun h => e (Prod.ext same h)
          simp [Pooled, other]
        · exact Iff.rfl

/-- R155: room for one more in the pool, made by the leaving of the oldest. -/
def roomed (x : ClipIndex) : ClipIndex := if poolPlaces ≤ x.pool.length then x.dropOldest else x

theorem joinPool_eq (x : ClipIndex) (i : Svc) (start : Mi) :
    x.joinPool i start = { x.roomed with pool := x.roomed.pool ++ [(i, start)] } := rfl

theorem GoodBut.roomed (h : x.GoodBut i start) : x.roomed.GoodBut i start ∧ x.roomed.pool.length < 2048 := by
  unfold ClipIndex.roomed poolPlaces
  split
  · next full =>
    refine ⟨h.dropOldest, ?_⟩
    have := h.length
    unfold ClipIndex.dropOldest
    split
    · next empty =>
      rw [empty] at full
      exact absurd full (by decide)
    · next p ps pool =>
      rw [pool, List.length_cons] at this
      exact this
  · next room => exact ⟨h, Nat.lt_of_not_le room⟩

theorem pooled_placeEntry {e : ClipEntry} {l : List ClipEntry} (h : l.Pairwise fun a b => a.start < b.start) {m : Mi}
    (other : m ≠ e.start) : Pooled (placeEntry e l) m ↔ Pooled l m := by
  have ne (k : ClipKind) : (⟨m, k⟩ : ClipEntry) ∈ placeEntry e l ↔ (⟨m, k⟩ : ClipEntry) ∈ l := by
    rw [mem_placeEntry_iff h, or_iff_right (fun h => other (by rw [← h])), and_iff_left other]
  exact or_congr (ne .gap) (ne .lost)

theorem Good.appendStored (h : x.Good) (i : Svc) (slot : Nat) (start : Mi) : (x.appendStored i slot start).Good := by
  have but := h.leavePool i start
  refine but.setList (placeEntry_rising (h.1 i)) (fun m other => pooled_placeEntry (h.1 i) other) (.inl ⟨?_, rfl⟩)
  have other (k : ClipKind) (hk : k ≠ .stored slot) : (⟨start, k⟩ : ClipEntry) ∉ placeEntry ⟨start, .stored slot⟩ x.lists[i] := by
    rw [mem_placeEntry_iff (h.1 i)]
    rintro (e | ⟨_, ne⟩)
    · exact hk (congrArg ClipEntry.kind e)
    · exact ne rfl
  rintro (mem | mem)
  · exact other .gap nofun mem
  · exact other .lost nofun mem

theorem Good.appendGap (h : x.Good) (i : Svc) (start : Mi) : (x.appendGap i start).Good := by
  obtain ⟨but, room⟩ := (h.leavePool i start).roomed
  refine but.setList (placeEntry_rising (but.rising i)) (fun m other => pooled_placeEntry (but.rising i) other)
    (.inr ⟨.inl ?_, rfl, room⟩)
  rw [mem_placeEntry_iff (but.rising i)]
  exact .inl rfl

/-- R154: no GAP or LOST entry is removed. -/
theorem Good.remove (h : x.Good) (i : Svc) (slot : Nat) (start : Mi) : (x.remove i slot start).Good := by
  obtain ⟨rising, length, nodup, pooled⟩ := h
  have listed (j : Svc) : (x.remove i slot start).lists[j] =
      if j = i then x.lists[j].filter (fun e => e != ⟨start, .stored slot⟩) else x.lists[j] := by
    by_cases e : j = i
    · subst e
      simp [ClipIndex.remove, ClipIndex.setList]
    · have ne : (i : Nat) ≠ j := fun h => e (Fin.ext h.symm)
      simp [ClipIndex.remove, ClipIndex.setList, e, ne]
  refine ⟨fun j => ?_, length, nodup, fun j m => (pooled j m).trans ?_⟩
  · rw [listed]
    split
    · exact (rising j).filter _
    · exact rising j
  · rw [listed]
    split
    · simp
    · exact Iff.rfl

/-- In a rising list the entries at one start are one. -/
theorem eq_of_start {l : List ClipEntry} (h : l.Pairwise fun a b => a.start < b.start) {e f : ClipEntry} (he : e ∈ l) (hf : f ∈ l)
    (same : e.start = f.start) : e = f := by
  by_contra ne
  have sym : Std.Symm fun a b : ClipEntry => a.start ≠ b.start := ⟨fun _ _ h => h.symm⟩
  exact (h.imp (S := fun a b => a.start ≠ b.start) (fun hlt => Nat.ne_of_lt hlt)).forall he hf ne same

theorem Good.markLost (h : x.Good) (i : Svc) (slot : Nat) (start : Mi) : (x.markLost i slot start).Good := by
  unfold ClipIndex.markLost
  split
  · next stored =>
    replace stored : (⟨start, .stored slot⟩ : ClipEntry) ∈ x.lists[i] := by simpa [hasStored] using stored
    obtain ⟨rising, length, nodup, pooled⟩ := h
    have unpooled : (i, start) ∉ x.pool := by
      rw [pooled]
      rintro (mem | mem) <;> cases eq_of_start (rising i) mem stored rfl
    obtain ⟨but, room⟩ := (GoodBut.mk (i := i) (start := start) rising length nodup unpooled fun j m _ => pooled j m).roomed
    have kept : (⟨start, .stored slot⟩ : ClipEntry) ∈ x.roomed.lists[i] := by
      unfold ClipIndex.roomed
      split
      · unfold ClipIndex.dropOldest
        split
        · exact stored
        · next p ps pool =>
          by_cases e : i = p.1
          · subst e
            have other : start ≠ p.2 := by
              rintro rfl
              exact unpooled (pool ▸ List.mem_cons_self)
            simpa [other] using stored
          · have ne : (p.1 : Nat) ≠ i := fun h => e (Fin.ext h.symm)
            simpa [ne] using stored
      · exact stored
    dsimp only
    rw [joinPool_eq]
    refine but.setList (List.pairwise_map.mpr ((but.rising i).imp fun {a b} lt => ?_)) (fun m other => ?_)
      (.inr ⟨.inr (List.mem_map.mpr ⟨_, kept, if_pos rfl⟩), rfl, room⟩)
    · split <;> split <;> simp_all
    · have ne (k : ClipKind) (hk : ∀ n, k ≠ .stored n) :
          (⟨m, k⟩ : ClipEntry) ∈ x.roomed.lists[i].map (fun e => if e = ⟨start, .stored slot⟩ then ⟨start, .lost⟩ else e) ↔
            (⟨m, k⟩ : ClipEntry) ∈ x.roomed.lists[i] := by
        rw [List.mem_map]
        constructor
        · rintro ⟨e, mem, eq⟩
          split at eq
          · cases eq
            exact absurd rfl other
          · exact eq ▸ mem
        · exact fun mem => ⟨_, mem, if_neg fun e => hk slot (by cases e; rfl)⟩
      exact or_congr (ne .gap nofun) (ne .lost nofun)
  · exact h

end ClipIndex

theorem exec_clips_good {c : Instr} {s t : State} (hc : c.part = .clips) (h : exec c s = .next t) (good : s.clips.Good) :
    t.clips.Good := by
  cases c <;> cases hc <;> obtain rfl := Host.Outcome.next.inj h
  case appendStored i slot start => exact good.appendStored i slot start
  case appendGap i start => exact good.appendGap i start
  case removeEntry i slot start => exact good.remove i slot start
  case markLost i slot start => exact good.markLost i slot start

theorem ClipIndex.good_empty : (ClipIndex.mk (Vector.replicate 16 []) []).Good := by
  simp [ClipIndex.Good]

theorem exec_keeps_clips {c : Instr} {s t : State} (h : exec c s = .next t) (good : s.clips.Good) : t.clips.Good := by
  rcases exec_cases h with ⟨_, frame⟩ | ⟨straps, rfl⟩ | ⟨rq, straps, rfl⟩
  · by_cases clips : c.part = .clips
    · exact exec_clips_good clips h good
    · rwa [frame.clips clips]
  · exact ClipIndex.good_empty
  · rw [State.respond_clips]
    rwa [s.warmed_keeps State.clips (fun _ _ => rfl) (fun u => (State.Frame.passServed .ports u).clips (by decide)) (fun _ => rfl)
      (fun u => (State.Frame.warmSchedule u).clips (by decide)) (fun _ => rfl)
      (fun u => (State.Frame.warmRecorder u).clips (by decide)) (fun u => (State.Frame.warmBank u).clips (by decide))
      (fun _ _ => rfl) rq straps]

/-! ### Hold counts (R145) -/

/-- R145: 1 where an entry of the hold table is live and covers the chunk of service `i` that starts at `c`. -/
def coverOf (o : Option Hold) (i : Svc) (c : Mi) : Nat := if o.any fun h => h.svc == i && h.overlaps c then 1 else 0

theorem holdsOver_eq_countP (t : Vector (Option Hold) 32) (i : Svc) (c : Mi) :
    holdsOver t i c = (List.finRange 32).countP fun n => t[n].any fun h => h.svc == i && h.overlaps c := by
  unfold holdsOver liveHolds
  rw [← List.countP_eq_length_filter, List.countP_filterMap]
  refine List.countP_congr fun n _ => ?_
  cases t[n] <;> simp

/-- R145: an entry of the hold table replaced changes the count by what it and the old one cover. -/
theorem holdsOver_set (t : Vector (Option Hold) 32) (n : Fin 32) (o : Option Hold) (i : Svc) (c : Mi) :
    holdsOver (t.set n o) i c + coverOf t[n] i c = holdsOver t i c + coverOf o i c := by
  have split (v : Vector (Option Hold) 32) : holdsOver v i c = coverOf v[n] i c +
      ((List.finRange 32).erase n).countP fun m => v[m].any fun h => h.svc == i && h.overlaps c := by
    rw [holdsOver_eq_countP, (List.perm_cons_erase (List.mem_finRange n)).countP_eq, List.countP_cons, Nat.add_comm]
    rfl
  have others : ((List.finRange 32).erase n).countP (fun m => (t.set n o)[m].any fun h => h.svc == i && h.overlaps c) =
      ((List.finRange 32).erase n).countP fun m => t[m].any fun h => h.svc == i && h.overlaps c := by
    refine List.countP_congr fun m hm => ?_
    have ne : m ≠ n := ((List.nodup_finRange 32).mem_erase_iff.mp hm).1
    have ne' : (n : Nat) ≠ m := fun h => ne (Fin.ext h.symm)
    simp [ne']
  have here : (t.set n o)[n] = o := by simp
  rw [split, split t, others, here]
  omega

/-- R145: the hold counts of a chunk table under a hold table. -/
def Counted (t : Vector (Option Hold) 32) (l : List (Nat × Slot)) : Prop :=
  ∀ e ∈ l, e.2.holdCount = holdsOver t e.2.svc e.2.start

namespace Counted

variable {t : Vector (Option Hold) 32} {l : List (Nat × Slot)}

theorem put (h : Counted t l) {n : Nat} {x : Slot} (hx : x.holdCount = holdsOver t x.svc x.start) : Counted t (putSlot n x l) := by
  intro e he
  rcases fst_mem_putSlot he with rfl | he
  · exact hx
  · exact h e he

theorem drop (h : Counted t l) (n : Nat) : Counted t (dropSlot n l) := fun e he => h e (List.mem_of_mem_filter he)

theorem mem_of_slotAt {n : Nat} {x : Slot} (h : slotAt n l = some x) : (n, x) ∈ l := by
  induction l with
  | nil => cases h
  | cons e l ih =>
    unfold slotAt at h
    split at h
    · next same =>
      obtain rfl := Option.some.inj h
      exact same ▸ List.mem_cons_self
    · exact List.mem_cons_of_mem e (ih h)

theorem at_slot (h : Counted t l) {n : Nat} {x : Slot} (hx : slotAt n l = some x) : x.holdCount = holdsOver t x.svc x.start :=
  h _ (mem_of_slotAt hx)

theorem update {s : Store} (h : Counted t s.slots) (n : Nat) {f : Slot → Slot}
    (keeps : ∀ x, (f x).holdCount = x.holdCount ∧ (f x).svc = x.svc ∧ (f x).start = x.start) : Counted t (s.update n f).slots := by
  unfold Store.update
  split
  · exact h
  · next x hx =>
    obtain ⟨count, svc, start⟩ := keeps x
    exact h.put (by rw [count, svc, start, h.at_slot hx])

/-- R145: a hold placed or freed moves the count of every slot that it covers. -/
theorem countHold {t' : Vector (Option Hold) 32} {s : Store} (h : Counted t s.slots) {g : Hold} {f : Nat → Nat}
    (moved : ∀ i c, holdsOver t' i c = if g.svc = i ∧ g.overlaps c = true then f (holdsOver t i c) else holdsOver t i c) :
    Counted t' (s.countHold g f).slots := by
  intro e he
  obtain ⟨e₀, mem, rfl⟩ := List.mem_map.mp he
  have old := h e₀ mem
  have same : g.covers e₀.2 = true ↔ g.svc = e₀.2.svc ∧ g.overlaps e₀.2.start = true := by
    rw [Hold.covers, Bool.and_eq_true, beq_iff_eq, eq_comm]
  split
  · next covered =>
    dsimp only
    rw [moved, if_pos (same.mp covered), old]
  · next free => rw [moved, if_neg (mt same.mpr free), old]

end Counted

theorem holdsOver_create {t : Vector (Option Hold) 32} {n : Fin 32} (free : t[n] = none) (h : Hold) (i : Svc) (c : Mi) :
    holdsOver (t.set n (some h)) i c = if h.svc = i ∧ h.overlaps c = true then holdsOver t i c + 1 else holdsOver t i c := by
  have moved := holdsOver_set t n (some h) i c
  rw [free] at moved
  simp only [coverOf, Option.any_none, Option.any_some, Bool.and_eq_true, beq_iff_eq] at moved
  split <;> simp_all

theorem holdsOver_free {t : Vector (Option Hold) 32} {n : Fin 32} {h : Hold} (live : t[n] = some h) (i : Svc) (c : Mi) :
    holdsOver (t.set n none) i c = if h.svc = i ∧ h.overlaps c = true then holdsOver t i c - 1 else holdsOver t i c := by
  have moved := holdsOver_set t n none i c
  rw [live] at moved
  simp only [coverOf, Option.any_none, Option.any_some, Bool.and_eq_true, beq_iff_eq] at moved
  split
  · next covered =>
    rw [if_pos covered] at moved
    simp only [Bool.false_eq_true, if_false] at moved
    omega
  · next outside =>
    rw [if_neg outside] at moved
    simpa using moved

theorem holdsOver_fix {t : Vector (Option Hold) 32} {n : Fin 32} {h : Hold} (live : t[n] = some h) (i : Svc) (c : Mi) :
    holdsOver (t.set n (some { h with fixed := true })) i c = holdsOver t i c := by
  have moved := holdsOver_set t n (some { h with fixed := true }) i c
  have same : coverOf (some { h with fixed := true }) i c = coverOf (some h) i c := rfl
  rw [live, same] at moved
  omega

theorem freeEntry_eq_none {t : Vector (Option Hold) 32} {n : Fin 32} (h : freeEntry t = some n) : t[n] = none := by
  simpa using List.find?_some h

/-! #### The recorder's work -/

namespace Work

/-- R130, R145: the hold counts of the store as the recorder works on it. -/
def Counts (a : Around) (w : Work) : Prop := Counted a.holds w.store.slots

namespace Counts

variable {w : Work} {a : Around}

theorem congr {v : Work} (h : w.Counts a) (e : v.store.slots = w.store.slots) : v.Counts a := by
  unfold Counts
  rw [e]
  exact h

theorem testBacklog (h : w.Counts a) : (w.testBacklog a).Counts a := h.congr (by
  simp only [Work.testBacklog]
  rw [Store.testBacklog_eq])

theorem setRecording (h : w.Counts a) (state : Recording) (m : Mi) : (w.setRecording a state m).Counts a := by
  refine h.congr ?_
  unfold Work.setRecording
  dsimp only
  split <;> rfl

theorem fill (h : w.Counts a) (b : Mi) (n : Nat) : (w.fill a b n).Counts a := Counted.put h rfl

theorem openSpan (h : w.Counts a) (b m : Mi) : (w.openSpan a b m).Counts a := by
  unfold Work.openSpan
  split
  · exact (fill h b _).setRecording _ _
  · exact (fill (w := w.say _) h b _).setRecording _ _
  · exact (fill (w := w.say _) h b _).testBacklog.setRecording _ _
  · exact setRecording (w := { w with x := { w.x with span := some ⟨b, Option.none, 0⟩ } }) h _ _

theorem giveUp (h : w.Counts a) (n : Nat) (start : Mi) : (w.giveUp a n start).Counts a := Counted.drop h n

theorem endAsGap (h : w.Counts a) (n : Nat) (start first : Mi) : (w.endAsGap a n start first).Counts a :=
  setRecording (w := (w.giveUp a n start).recordGap a start) (h.giveUp n start) _ _

theorem endChunk (h : w.Counts a) (n : Nat) {s : Slot} (hs : s.holdCount = holdsOver a.holds s.svc s.start) (e : Mi) (cut : Bool) :
    (w.endChunk a n s e cut).Counts a := by
  unfold Work.endChunk
  split
  · exact h.endAsGap _ _ _
  · exact Counted.put h hs

theorem endSpan (h : w.Counts a) (p : Span) : (w.endSpan a p).Counts a := by
  unfold Work.endSpan
  split
  · exact h
  · split
    · exact h
    · next hs => exact h.endChunk _ (Counted.at_slot h hs) _ _

theorem applyItem (h : w.Counts a) (p : Span) (i : HeldItem) : (w.applyItem p i).Counts a := by
  unfold Work.applyItem
  split
  · exact h
  · unfold Counts
    dsimp only
    split
    · exact h
    · exact Counted.update h _ fun x => ⟨rfl, rfl, rfl⟩

theorem sort (h : w.Counts a) (i : HeldItem) : (w.sort i).Counts a := by
  unfold Work.sort
  split
  · exact h
  · split
    · exact h
    · split
      · exact h.applyItem _ _
      · exact h

theorem foldl_sort (h : w.Counts a) (l : List HeldItem) : (l.foldl Work.sort w).Counts a := by
  induction l generalizing w with
  | nil => exact h
  | cons i l ih => exact ih (h.sort i)

theorem sortHeld (h : w.Counts a) : w.sortHeld.Counts a := foldl_sort (w := { w with x := { w.x with held := [] } }) h _

theorem takeItem (h : w.Counts a) (i : HeldItem) : (w.takeItem i).Counts a := by
  unfold Work.takeItem
  split
  · split
    · exact h
    · exact h
    · exact h.sort i
  · exact h

theorem boundary (h : w.Counts a) : (w.boundary a).Counts a := by
  unfold Work.boundary
  split
  · exact h
  · exact ((h.endSpan _).testBacklog.openSpan _ _).sortHeld

theorem boundaries (h : w.Counts a) (fuel : Nat) : (Work.boundaries a fuel w).Counts a := by
  induction fuel generalizing w with
  | zero => exact h
  | succ fuel ih =>
    unfold Work.boundaries
    split
    · exact h
    · exact ih h.boundary

theorem settle (h : w.Counts a) : (w.settle a).Counts a := h.boundaries _

theorem onAir (h : w.Counts a) (m : OnAirMsg) : (w.onAir a m).Counts a := by
  unfold Work.onAir
  split
  · exact h
  · exact h
  · dsimp only
    split
    · refine sortHeld (openSpan ?_ _ _)
      exact h
    · exact h

theorem cutSpan (h : w.Counts a) (p : Span) (e : Mi) : (w.cutSpan a p e).Counts a := by
  unfold Work.cutSpan
  dsimp only
  split
  · split <;> exact h
  · split
    · exact h
    · next s hs =>
      have counted := Counted.at_slot h hs
      split
      · refine endChunk (s := { s with chunk := _ }) h _ ?_ _ _
        exact counted
      · exact h.giveUp _ _

theorem cut (h : w.Counts a) (e : Mi) : (w.cut a e).Counts a := by
  unfold Work.cut
  split
  · exact h
  · exact h.cutSpan _ _

theorem runEnded (h : w.Counts a) (endMi : Option Mi) : (w.runEnded a endMi).Counts a := by
  unfold Work.runEnded
  split
  · exact h
  · exact h
  · exact h
  · exact (h.cut _).testBacklog

theorem takeTick (h : w.Counts a) (t : Mi) : (w.takeTick t).Counts a := by
  unfold Work.takeTick
  split <;> exact h

theorem warmReset (h : w.Counts a) : (w.warmReset a).Counts a := by
  unfold Work.warmReset
  dsimp only
  split
  · exact h.cut _
  · exact h
  · exact h

end Counts

end Work

/-! #### The commands that reach the store -/

theorem State.GoodHoldCounts.congr {s t : State} (h : s.GoodHoldCounts) (slots : t.store.slots = s.store.slots)
    (holds : t.holds = s.holds) : t.GoodHoldCounts := by
  unfold State.GoodHoldCounts
  rw [slots, holds]
  exact h

theorem State.GoodHoldCounts.worked {s : State} {i : Svc} {w : Work} (h : w.Counts (s.around i)) :
    (s.worked i w).GoodHoldCounts := by
  unfold State.GoodHoldCounts
  rw [State.worked_store, State.worked_holds]
  exact h

theorem State.GoodHoldCounts.work {s : State} (h : s.GoodHoldCounts) (i : Svc) : (s.work i).Counts (s.around i) := h

theorem State.testBacklog_slots (s : State) : s.testBacklog.store.slots = s.store.slots := by
  rw [State.testBacklog_store, Store.testBacklog_eq]

theorem State.GoodHoldCounts.endTake {s : State} (h : s.GoodHoldCounts) (slot : Nat) (state : SlotState) :
    (s.endTake slot state).GoodHoldCounts := Counted.update h slot fun _ => ⟨rfl, rfl, rfl⟩

theorem State.GoodHoldCounts.expireTake {s : State} (h : s.GoodHoldCounts) (begun : Option Mi) (t : Take) :
    (s.expireTake begun t).GoodHoldCounts := by
  unfold State.expireTake
  split
  · exact h
  · exact (h.endTake t.slot .sealed).congr (State.testBacklog_slots _) (State.testBacklog_holds _)

theorem State.GoodHoldCounts.createHold {s : State} (good : s.GoodHoldCounts) {n : Fin 32} (free : freeEntry s.holds = some n)
    (h : Hold) : (s.createHold n h).GoodHoldCounts :=
  Counted.countHold good (holdsOver_create (freeEntry_eq_none free) h)

theorem exec_store_counts {c : Instr} {s t : State} (hc : c.part = .store) (h : exec c s = .next t) (good : s.GoodHoldCounts) :
    t.GoodHoldCounts := by
  have same {u : State} (slots : u.store.slots = s.store.slots) (holds : u.holds = s.holds) : u.GoodHoldCounts :=
    good.congr slots holds
  cases c <;> cases hc <;> obtain rfl := Host.Outcome.next.inj h
  case recorderRunStarted => exact good
  case onAirMessage i m => exact .worked ((good.work i).onAir m).settle
  case recorderRunEnded i e => exact .worked ((good.work i).runEnded e)
  case recorderSampleFrame i m _ | recorderJudgment i m _ | recorderCaptionPacket i m _ | recorderProxyFrame i m _ =>
    exact .worked ((good.work i).takeItem _).settle
  case recorderMiTick t =>
    refine State.foldl_induction State.GoodHoldCounts (fun u i hu => ?_) _ good
    exact .worked ((hu.work i).takeTick t).settle
  case spanBoundary i => exact .worked (good.work i).boundary
  case configureStore =>
    split
    · exact same (by simp) (by simp)
    · refine State.GoodHoldCounts.congr ?_ (congrArg Store.slots (State.respondOk_store ..)) (State.respondOk_holds ..)
      intro e he
      cases he
  case setReserves =>
    split
    · exact same (by simp) (by simp)
    · refine same ?_ (by rw [State.respondOk_holds, State.testBacklog_holds]; rfl)
      rw [State.respondOk_store, State.testBacklog_slots]
      rfl
  case createHold =>
    split
    · exact same (by simp) (by simp)
    · split
      · exact same (by simp) (by simp)
      · split
        · exact same (by simp) (by simp)
        · next n free =>
          exact State.GoodHoldCounts.congr (State.GoodHoldCounts.createHold good free _)
            (congrArg Store.slots (State.respond_store ..)) (State.respond_holds ..)
  case automaticHoldRequest =>
    split
    · exact good
    · next n free => exact State.GoodHoldCounts.createHold good free _
  case releaseHold =>
    split
    · exact same (by simp) (by simp)
    · split
      · exact same (by simp) (by simp)
      · next live =>
        split
        · exact same (by simp) (by simp)
        · refine State.GoodHoldCounts.congr ?_ (congrArg Store.slots (State.respond_store ..)) (State.respond_holds ..)
          exact Counted.countHold good (holdsOver_free live)
  case fixHold =>
    split
    · exact same (by simp) (by simp)
    · split
      · exact same (by simp) (by simp)
      · next live =>
        refine State.GoodHoldCounts.congr ?_ (congrArg Store.slots (State.respond_store ..)) (State.respond_holds ..)
        intro e he
        exact (good e he).trans (holdsOver_fix live ..).symm
  case take =>
    split
    · exact same (by simp) (by simp)
    · split
      · exact same (by simp) (by simp)
      · split
        · exact same (by simp) (by simp)
        · next e _ =>
          refine State.GoodHoldCounts.congr ?_ ((congrArg Store.slots (State.respondOk_store ..)).trans (State.testBacklog_slots _))
            ((State.respondOk_holds ..).trans (State.testBacklog_holds _))
          exact Counted.update good e.1 fun _ => ⟨rfl, rfl, rfl⟩
  case confirm =>
    split
    · exact same (by simp) (by simp)
    · split
      · refine State.GoodHoldCounts.congr ?_ (congrArg Store.slots (State.respond_store ..)) (State.respond_holds ..)
        exact State.GoodHoldCounts.endTake good _ _
      · split
        · exact same (by simp) (by simp)
        · exact same (by simp) (by simp)
  case returnTake =>
    split
    · exact same (by simp) (by simp)
    · split
      · exact same (by simp) (by simp)
      · refine State.GoodHoldCounts.congr ?_ ((congrArg Store.slots (State.respond_store ..)).trans (State.testBacklog_slots _))
          ((State.respond_holds ..).trans (State.testBacklog_holds _))
        exact State.GoodHoldCounts.endTake good _ _
  case archivePeriodEdge begun =>
    refine State.foldl_induction State.GoodHoldCounts (fun u t hu => hu.expireTake begun t) _ ?_
    exact good
  case takeTimerExpiry =>
    split
    · exact good
    · split
      · exact good.expireTake _ _
      · exact good

theorem State.GoodHoldCounts.testBacklog {s : State} (h : s.GoodHoldCounts) : s.testBacklog.GoodHoldCounts :=
  h.congr (State.testBacklog_slots s) (State.testBacklog_holds s)

theorem State.GoodHoldCounts.returnAll {s : State} (h : s.GoodHoldCounts) (x : Archive) :
    { s with store := s.store.returnAll, archive := x : State }.GoodHoldCounts := by
  intro e he
  obtain ⟨e₀, mem, rfl⟩ := List.mem_map.mp he
  split <;> exact h e₀ mem

theorem State.GoodHoldCounts.warmRecorder {s : State} (good : s.GoodHoldCounts) : s.warmRecorder.GoodHoldCounts := by
  have cut : (allSvcs.foldl (fun x i => x.worked i ((x.work i).warmReset (x.around i))) s).GoodHoldCounts :=
    State.foldl_induction State.GoodHoldCounts (fun u i hu => .worked (hu.work i).warmReset) allSvcs good
  exact (cut.returnAll _).testBacklog

/-- What no block but the store and a reset touches is kept with it. -/
theorem State.warmed_keeps_store {P : State → Prop}
    (congr : ∀ {u v : State}, P u → v.store = u.store → v.recorder = u.recorder → v.holds = u.holds → v.archive = u.archive → P v)
    (recorder : ∀ {u : State}, P u → P u.warmRecorder) {s : State} (good : P s) (rq : Req) (straps : Straps) :
    P (s.warmed rq straps) := by
  have framed {k : Part} {u v : State} (hu : P u) (hk : k ≠ .store) (f : State.Frame k u v) : P v :=
    congr hu (f.store hk) (f.recorder hk) (f.holds hk) (f.archive hk)
  have measures {u : State} (hu : P u) : P u.warmMeasures := by
    rw [State.warmMeasures_eq]
    refine congr hu ?_ ?_ ?_ ?_ <;> rfl
  have ports {u : State} (hu : P u) : P (u.warmPorts straps) := by
    unfold State.warmPorts
    refine congr hu ?_ ?_ ?_ ?_ <;> rfl
  unfold State.warmed
  refine ports (framed ?_ (by decide) (State.Frame.warmBank _))
  refine recorder (measures (framed ?_ (by decide) (State.Frame.warmSchedule _)))
  refine framed ?_ (by decide) (State.Frame.dropRunStarted .ports _)
  refine framed ?_ (by decide) (State.Frame.warmRouter _)
  refine framed ?_ (by decide) (State.Frame.passServed .ports _)
  exact congr good rfl rfl rfl rfl

theorem exec_keeps_counts {c : Instr} {s t : State} (h : exec c s = .next t) (good : s.GoodHoldCounts) : t.GoodHoldCounts := by
  have congr {u v : State} (hu : u.GoodHoldCounts) (store : v.store = u.store) (holds : v.holds = u.holds) : v.GoodHoldCounts :=
    hu.congr (by rw [store]) holds
  rcases exec_cases h with ⟨_, frame⟩ | ⟨straps, rfl⟩ | ⟨rq, straps, rfl⟩
  · by_cases store : c.part = .store
    · exact exec_store_counts store h good
    · exact congr good (frame.store store) (frame.holds store)
  · intro e he
    cases he
  · refine congr ?_ (State.respond_store ..) (State.respond_holds ..)
    exact State.warmed_keeps_store (fun hu store _ holds _ => congr hu store holds) (fun hu => hu.warmRecorder) good rq straps

end Sys2Proof.Machine
end

section
/-!
The agreement of the chunk table, the spans and the takes (O44). What the spans and the takes say of the table is which slots are
FILLING, for which service and span (`FillsAt`), and which are IN_TRANSFER (`TransfersAt`); each operation on the table is described
by these two.
-/

namespace Sys2Proof.Machine

/-! ### The chunk table by slot -/

/-- Slot `n` is FILLING for service `i` and the span that starts at `b`. -/
def FillsAt (l : List (Nat × Slot)) (n : Nat) (i : Svc) (b : Mi) : Prop :=
  ∃ x, slotAt n l = some x ∧ x.state = .filling ∧ x.svc = i ∧ x.start = b

/-- Slot `n` is IN_TRANSFER. -/
def TransfersAt (l : List (Nat × Slot)) (n : Nat) : Prop := ∃ x, slotAt n l = some x ∧ x.state = .inTransfer

section
variable {l : List (Nat × Slot)} {n m : Nat} {x y : Slot} {i : Svc} {b : Mi}

theorem fillsAt_putSlot_other (h : m ≠ n) : FillsAt (putSlot n x l) m i b ↔ FillsAt l m i b := by
  unfold FillsAt
  rw [slotAt_putSlot_other h]

theorem fillsAt_putSlot_same : FillsAt (putSlot n x l) n i b ↔ x.state = .filling ∧ x.svc = i ∧ x.start = b := by
  simp [FillsAt, slotAt_putSlot_same]

theorem transfersAt_putSlot_other (h : m ≠ n) : TransfersAt (putSlot n x l) m ↔ TransfersAt l m := by
  unfold TransfersAt
  rw [slotAt_putSlot_other h]

theorem transfersAt_putSlot_same : TransfersAt (putSlot n x l) n ↔ x.state = .inTransfer := by
  simp [TransfersAt, slotAt_putSlot_same]

theorem fillsAt_dropSlot : FillsAt (dropSlot n l) m i b ↔ m ≠ n ∧ FillsAt l m i b := by
  unfold FillsAt
  by_cases h : m = n
  · subst h
    simp [slotAt_dropSlot_same]
  · simp [slotAt_dropSlot_other h, h]

theorem transfersAt_dropSlot : TransfersAt (dropSlot n l) m ↔ m ≠ n ∧ TransfersAt l m := by
  unfold TransfersAt
  by_cases h : m = n
  · subst h
    simp [slotAt_dropSlot_same]
  · simp [slotAt_dropSlot_other h, h]

/-- Every slot changed in its place. -/
theorem slotAt_map (f : Slot → Slot) : slotAt n (l.map fun e => (e.1, f e.2)) = (slotAt n l).map f := by
  induction l with
  | nil => rfl
  | cons e l ih =>
    simp only [List.map_cons, slotAt]
    split
    · rfl
    · exact ih

/-- A change of the slots that leaves which are FILLING, for whom, leaves `FillsAt`. -/
theorem fillsAt_map {f : Slot → Slot}
    (keeps : ∀ x, ((f x).state = .filling ↔ x.state = .filling) ∧ (f x).svc = x.svc ∧ (f x).start = x.start) :
    FillsAt (l.map fun e => (e.1, f e.2)) n i b ↔ FillsAt l n i b := by
  unfold FillsAt
  rw [slotAt_map]
  constructor
  · rintro ⟨_, found, state, svc, start⟩
    obtain ⟨x, hx, rfl⟩ := Option.map_eq_some_iff.mp found
    obtain ⟨k1, k2, k3⟩ := keeps x
    exact ⟨x, hx, k1.mp state, k2 ▸ svc, k3 ▸ start⟩
  · rintro ⟨x, hx, state, svc, start⟩
    obtain ⟨k1, k2, k3⟩ := keeps x
    exact ⟨f x, by rw [hx]; rfl, k1.mpr state, k2.trans svc, k3.trans start⟩

theorem transfersAt_map {f : Slot → Slot} :
    TransfersAt (l.map fun e => (e.1, f e.2)) n ↔ ∃ x, slotAt n l = some x ∧ (f x).state = .inTransfer := by
  unfold TransfersAt
  rw [slotAt_map]
  constructor
  · rintro ⟨_, found, state⟩
    obtain ⟨x, hx, rfl⟩ := Option.map_eq_some_iff.mp found
    exact ⟨x, hx, state⟩
  · rintro ⟨x, hx, state⟩
    exact ⟨f x, by rw [hx]; rfl, state⟩

theorem risingSlots_iff_pairwise : risingSlots l = true ↔ l.Pairwise fun a b => a.1 < b.1 := by
  induction l with
  | nil => simp [risingSlots]
  | cons e l ih => rw [risingSlots_cons, List.pairwise_cons, ih]

/-- R126: the lowest slot that a rising table does not list. -/
theorem slotAt_firstFree (h : risingSlots l = true) (above : ∀ e ∈ l, n ≤ e.1) : slotAt (firstFree n l) l = none := by
  induction l generalizing n with
  | nil => rfl
  | cons e l ih =>
    obtain ⟨lower, rising⟩ := (risingSlots_cons e l).mp h
    have first := above e List.mem_cons_self
    have notBelow : ¬ e.1 < n := Nat.not_lt.mpr first
    have low {k : Nat} (hk : ∀ f ∈ l, k ≤ f.1) : k ≤ firstFree k l := by
      clear ih above first notBelow h lower
      induction l generalizing k with
      | nil => exact Nat.le_refl k
      | cons g l ih =>
        unfold firstFree
        have hg := hk g List.mem_cons_self
        obtain ⟨lower, rising⟩ := (risingSlots_cons g l).mp rising
        split
        · next same => exact (Nat.le_succ k).trans (ih rising fun f hf => same ▸ lower f hf)
        · rw [if_neg (Nat.not_lt.mpr hg)]
    unfold firstFree
    split
    · next same =>
      have next : ∀ f ∈ l, n + 1 ≤ f.1 := fun f hf => same ▸ lower f hf
      unfold slotAt
      have := low next
      rw [if_neg (by omega)]
      exact ih rising next
    · next other =>
      unfold slotAt
      rw [if_neg other]
      have absent : ∀ l' : List (Nat × Slot), (∀ f ∈ l', n < f.1) → slotAt n l' = none := by
        intro l' hl'
        induction l' with
        | nil => rfl
        | cons g l' ih =>
          have := hl' g List.mem_cons_self
          unfold slotAt
          rw [if_neg (by omega)]
          exact ih fun f hf => hl' f (List.mem_cons_of_mem g hf)
      refine absent l fun f hf => ?_
      have := lower f hf
      omega

end

/-! ### The table and the seals, slot by slot (R121, R137, R139) -/

namespace Store

variable {x y : Store}

/-- R139: seal numbers, as the slots hold them. -/
theorem goodSeals_iff (h : risingSlots x.slots = true) :
    x.GoodSeals ↔
      (∀ n s, slotAt n x.slots = some s → (s.state = .filling ↔ s.sealNo = none)) ∧
      (∀ n s k, slotAt n x.slots = some s → s.sealNo = some k → 1 ≤ k ∧ k ≤ x.sealCount) ∧
      (∀ n m s t k, n ≠ m → slotAt n x.slots = some s → slotAt m x.slots = some t → s.sealNo = some k → t.sealNo ≠ some k) ∧
      x.sealCount ≤ 2 ^ 32 - 1 := by
  have mem {n : Nat} {s : Slot} : slotAt n x.slots = some s ↔ (n, s) ∈ x.slots := slotAt_eq_some_iff h
  unfold GoodSeals
  refine and_congr ?_ (and_congr ?_ (and_congr ?_ Iff.rfl))
  · exact ⟨fun all n s hs => all _ (mem.mp hs), fun all e he => all e.1 e.2 (mem.mpr he)⟩
  · exact ⟨fun all n s k hs => all _ (mem.mp hs) k, fun all e he k => all e.1 e.2 k (mem.mpr he)⟩
  · constructor
    · intro all n m s t k ne hs ht
      have sym : Std.Symm fun a b : Nat × Slot => ∀ k, a.2.sealNo = some k → b.2.sealNo ≠ some k :=
        ⟨fun _ _ h k hk hk' => h k hk' hk⟩
      exact all.forall (mem.mp hs) (mem.mp ht) (fun e => ne (congrArg Prod.fst e)) k
    · intro all
      refine (risingSlots_iff_pairwise.mp h).imp_of_mem fun {a b} ha hb lt k => ?_
      exact all a.1 b.1 a.2 b.2 k (Nat.ne_of_lt lt) (mem.mpr ha) (mem.mpr hb)

/-- R139: a seal number that no other slot has. -/
def FreshSeal (x : Store) (n : Nat) (s : Slot) (count : Nat) : Prop :=
  (s.state = .filling ↔ s.sealNo = none) ∧
  ∀ k, s.sealNo = some k → 1 ≤ k ∧ k ≤ count ∧ ∀ m t, m ≠ n → slotAt m x.slots = some t → t.sealNo ≠ some k

/-- A slot written, with the seal counter raised or left. -/
theorem good_put (table : x.GoodTable) (seals : x.GoodSeals) {n count : Nat} {s : Slot} (below : n < x.slotCount)
    (fresh : x.FreshSeal n s count) (grows : x.sealCount ≤ count) (top : count ≤ 2 ^ 32 - 1)
    (slots : y.slots = putSlot n s x.slots) (size : y.slotCount = x.slotCount) (counter : y.sealCount = count) :
    y.GoodTable ∧ y.GoodSeals := by
  obtain ⟨rising, bound⟩ := table
  have rising' : risingSlots y.slots = true := slots ▸ risingSlots_putSlot n s rising
  obtain ⟨states, numbers, apart, _⟩ := (goodSeals_iff rising).mp seals
  obtain ⟨state, number⟩ := fresh
  have old {m : Nat} {t : Slot} (ne : m ≠ n) (h : slotAt m y.slots = some t) : slotAt m x.slots = some t := by
    rwa [slots, slotAt_putSlot_other ne] at h
  have new {t : Slot} (h : slotAt n y.slots = some t) : t = s := by
    rw [slots, slotAt_putSlot_same] at h
    exact (Option.some.inj h).symm
  refine ⟨⟨rising', fun e he => ?_⟩, (goodSeals_iff rising').mpr ⟨fun m t h => ?_, fun m t k h hk => ?_, ?_, counter ▸ top⟩⟩
  · rw [slots] at he
    rw [size]
    rcases fst_mem_putSlot he with rfl | he
    · exact below
    · exact bound e he
  · by_cases e : m = n
    · subst e
      rw [new h]
      exact state
    · exact states m t (old e h)
  · rw [counter]
    by_cases e : m = n
    · subst e
      obtain rfl := new h
      exact ⟨(number k hk).1, (number k hk).2.1⟩
    · have := numbers m t k (old e h) hk
      omega
  · intro m m' t t' k ne h h' hk hk'
    by_cases e : m = n
    · subst e
      obtain rfl := new h
      exact (number k hk).2.2 m' t' ne.symm (old ne.symm h') hk'
    · by_cases e' : m' = n
      · subst e'
        obtain rfl := new h'
        exact (number k hk').2.2 m t ne (old ne h) hk
      · exact apart m m' t t' k ne (old e h) (old e' h') hk hk'

/-- A slot rewritten under the seal number that it has. -/
theorem freshSeal_of_slotAt (table : x.GoodTable) (seals : x.GoodSeals) {n : Nat} {s t : Slot} (h : slotAt n x.slots = some s)
    (same : t.sealNo = s.sealNo) (state : t.state = .filling ↔ s.state = .filling) : x.FreshSeal n t x.sealCount := by
  obtain ⟨states, numbers, apart, _⟩ := (goodSeals_iff table.1).mp seals
  refine ⟨by rw [state, same]; exact states n s h, fun k hk => ?_⟩
  rw [same] at hk
  obtain ⟨low, high⟩ := numbers n s k h hk
  exact ⟨low, high, fun m u ne hu => apart n m s u k ne.symm h hu hk⟩

theorem slotAt_lt (table : x.GoodTable) {n : Nat} {s : Slot} (h : slotAt n x.slots = some s) : n < x.slotCount :=
  table.2 _ (Counted.mem_of_slotAt h)

/-- A slot freed. -/
theorem good_drop (table : x.GoodTable) (seals : x.GoodSeals) {n : Nat} (slots : y.slots = dropSlot n x.slots)
    (size : y.slotCount = x.slotCount) (counter : y.sealCount = x.sealCount) : y.GoodTable ∧ y.GoodSeals := by
  obtain ⟨rising, bound⟩ := table
  obtain ⟨states, numbers, apart, top⟩ := seals
  have mem {e : Nat × Slot} (h : e ∈ y.slots) : e ∈ x.slots := List.mem_of_mem_filter (slots ▸ h)
  refine ⟨⟨slots ▸ risingSlots_dropSlot n rising, fun e he => size ▸ bound e (mem he)⟩, fun e he => states e (mem he),
    fun e he k hk => counter ▸ numbers e (mem he) k hk, ?_, counter ▸ top⟩
  rw [slots]
  exact apart.filter _

/-- Every slot changed in its place, its seal number and whether it is FILLING as they were. -/
theorem good_map (table : x.GoodTable) (seals : x.GoodSeals) {f : Slot → Slot}
    (keeps : ∀ s, (f s).sealNo = s.sealNo ∧ ((f s).state = .filling ↔ s.state = .filling))
    (slots : y.slots = x.slots.map fun e => (e.1, f e.2)) (size : y.slotCount = x.slotCount) (counter : y.sealCount = x.sealCount) :
    y.GoodTable ∧ y.GoodSeals := by
  obtain ⟨rising, bound⟩ := table
  obtain ⟨states, numbers, apart, top⟩ := seals
  have from_old {e : Nat × Slot} (h : e ∈ y.slots) : ∃ e₀ ∈ x.slots, e = (e₀.1, f e₀.2) := by
    rw [slots] at h
    obtain ⟨e₀, mem, rfl⟩ := List.mem_map.mp h
    exact ⟨e₀, mem, rfl⟩
  refine ⟨⟨slots ▸ risingSlots_map (fun e => (e.1, f e.2)) (fun _ => rfl) rising, fun e he => ?_⟩, fun e he => ?_, fun e he k hk => ?_, ?_, counter ▸ top⟩
  · obtain ⟨e₀, mem, rfl⟩ := from_old he
    exact size ▸ bound e₀ mem
  · obtain ⟨e₀, mem, rfl⟩ := from_old he
    rw [(keeps _).1, (keeps _).2]
    exact states e₀ mem
  · obtain ⟨e₀, mem, rfl⟩ := from_old he
    rw [(keeps _).1] at hk
    exact counter ▸ numbers e₀ mem k hk
  · rw [slots]
    refine List.pairwise_map.mpr (apart.imp fun {a b} h k => ?_)
    rw [(keeps _).1, (keeps _).1]
    exact h k

end Store

/-! ### The recorder's work for one service -/

/-- The store as the recorder works on it for service `i`, against the store `base` at the beginning of the work: in form, with the
FILLING slots of the other services and the slots IN_TRANSFER as they were, and with the FILLING slot of `i`, if any, that of the
span `cur`. -/
structure Store.Sound (x : Store) (i : Svc) (base : Store) (cur : Option Span) : Prop where
  table : x.GoodTable
  seals : x.GoodSeals
  others : ∀ n j b, j ≠ i → (FillsAt x.slots n j b ↔ FillsAt base.slots n j b)
  transfers : ∀ n, TransfersAt x.slots n ↔ TransfersAt base.slots n
  has : ∀ p n, cur = some p → p.slot = some n → FillsAt x.slots n i p.start
  only : ∀ n b, FillsAt x.slots n i b → ∃ p, cur = some p ∧ p.slot = some n

namespace Store.Sound

variable {i : Svc} {base x y : Store} {cur : Option Span} {p : Span} {n : Nat} {s : Slot}

theorem congr (h : Sound x i base cur) (slots : y.slots = x.slots) (size : y.slotCount = x.slotCount)
    (counter : y.sealCount = x.sealCount) : Sound y i base cur := by
  obtain ⟨table, seals, others, transfers, has, only⟩ := h
  constructor
  · rwa [GoodTable, slots, size]
  · rwa [GoodSeals, slots, counter]
  · rwa [slots]
  · rwa [slots]
  · rwa [slots]
  · rwa [slots]

theorem testBacklog (h : Sound x i base cur) (t : Option Mi) : Sound (x.testBacklog t).1 i base cur := by
  rw [Store.testBacklog_eq]
  exact h.congr rfl rfl rfl

/-- A span that is a gap has no slot, as no span has. -/
theorem gap_iff (gap : p.slot = none) : Sound x i base (some p) ↔ Sound x i base none := by
  constructor
  · rintro ⟨table, seals, others, transfers, _, only⟩
    refine ⟨table, seals, others, transfers, nofun, fun n b h => ?_⟩
    obtain ⟨_, e, slot⟩ := only n b h
    obtain rfl := Option.some.inj e
    cases gap.symm.trans slot
  · rintro ⟨table, seals, others, transfers, _, only⟩
    refine ⟨table, seals, others, transfers, fun q n e slot => ?_, fun n b h => ?_⟩
    · obtain rfl := Option.some.inj e
      cases gap.symm.trans slot
    · obtain ⟨_, none, _⟩ := only n b h
      cases none

/-- The slot of the current span. -/
theorem slot (h : Sound x i base (some p)) (hp : p.slot = some n) :
    ∃ s, slotAt n x.slots = some s ∧ s.state = .filling ∧ s.svc = i ∧ s.start = p.start := h.has p n rfl hp

/-- Another slot than that of the current span is none of the service's. -/
theorem not_fills (h : Sound x i base (some p)) (hp : p.slot = some n) {m : Nat} (ne : m ≠ n) (b : Mi) :
    ¬ FillsAt x.slots m i b := by
  intro fills
  obtain ⟨q, e, slot⟩ := h.only m b fills
  obtain rfl := Option.some.inj e
  exact ne (Option.some.inj (slot.symm.trans hp))

/-- R130: a slot that is neither FILLING nor IN_TRANSFER becomes the FILLING slot of the span. -/
theorem fill (h : Sound x i base none) (below : n < x.slotCount)
    (idle : ∀ t, slotAt n x.slots = some t → t.state ≠ .filling ∧ t.state ≠ .inTransfer) (state : s.state = .filling)
    (sealNo : s.sealNo = none) (svc : s.svc = i) (slots : y.slots = putSlot n s x.slots) (size : y.slotCount = x.slotCount)
    (counter : y.sealCount = x.sealCount) {judged : BitVec 20} : Sound y i base (some ⟨s.start, some n, judged⟩) := by
  obtain ⟨table, seals, others, transfers, _, only⟩ := h
  have fresh : x.FreshSeal n s x.sealCount := ⟨iff_of_true state sealNo, fun k hk => by cases sealNo.symm.trans hk⟩
  obtain ⟨table', seals'⟩ := good_put table seals below fresh (Nat.le_refl _) seals.2.2.2 slots size counter
  refine ⟨table', seals', fun m j b ne => ?_, fun m => ?_, fun q m e slot => ?_, fun m b fills => ?_⟩
  · rw [slots]
    by_cases e : m = n
    · subst e
      rw [fillsAt_putSlot_same, ← others m j b ne]
      refine iff_of_false (fun ⟨_, same, _⟩ => ne (same.symm.trans svc)) ?_
      rintro ⟨t, ht, filling, _⟩
      exact (idle t ht).1 filling
    · rw [fillsAt_putSlot_other e, others m j b ne]
  · rw [slots]
    by_cases e : m = n
    · subst e
      rw [transfersAt_putSlot_same, ← transfers m]
      refine iff_of_false (by simp [state]) ?_
      rintro ⟨t, ht, transfer⟩
      exact (idle t ht).2 transfer
    · rw [transfersAt_putSlot_other e, transfers m]
  · obtain rfl := Option.some.inj e
    obtain rfl := Option.some.inj slot
    rw [slots, fillsAt_putSlot_same]
    exact ⟨state, svc, rfl⟩
  · rw [slots] at fills
    by_cases e : m = n
    · exact ⟨_, rfl, by rw [e]⟩
    · rw [fillsAt_putSlot_other e] at fills
      obtain ⟨_, none, _⟩ := only m b fills
      cases none

/-- What follows of the other services and of the takes, when the slot of the current span alone changes and is FILLING no longer. -/
theorem ended (h : Sound x i base (some p)) (hp : p.slot = some n) (table : y.GoodTable) (seals : y.GoodSeals)
    (fillsOther : ∀ m j b, m ≠ n → (FillsAt y.slots m j b ↔ FillsAt x.slots m j b))
    (transfersOther : ∀ m, m ≠ n → (TransfersAt y.slots m ↔ TransfersAt x.slots m))
    (fillsHere : ∀ j b, ¬ FillsAt y.slots n j b) (transfersHere : ¬ TransfersAt y.slots n) : Sound y i base none := by
  obtain ⟨s, hs, state, svc, start⟩ := h.slot hp
  refine ⟨table, seals, fun m j b ne => ?_, fun m => ?_, nofun, fun m b fills => ?_⟩
  · rw [← h.others m j b ne]
    by_cases e : m = n
    · subst e
      refine iff_of_false (fillsHere j b) ?_
      rintro ⟨t, ht, _, other, _⟩
      obtain rfl := Option.some.inj (ht.symm.trans hs)
      exact ne (other.symm.trans svc)
    · exact fillsOther m j b e
  · rw [← h.transfers m]
    by_cases e : m = n
    · subst e
      refine iff_of_false transfersHere ?_
      rintro ⟨t, ht, transfer⟩
      obtain rfl := Option.some.inj (ht.symm.trans hs)
      cases state.symm.trans transfer
    · exact transfersOther m e
  · by_cases e : m = n
    · subst e
      exact absurd fills (fillsHere i b)
    · exact absurd ((fillsOther m i b e).mp fills) (h.not_fills hp e b)

/-- R138, R139: the slot of the current span becomes FREE. -/
theorem drop (h : Sound x i base (some p)) (hp : p.slot = some n) (slots : y.slots = dropSlot n x.slots)
    (size : y.slotCount = x.slotCount) (counter : y.sealCount = x.sealCount) : Sound y i base none := by
  obtain ⟨table, seals⟩ := good_drop h.table h.seals slots size counter
  refine h.ended hp table seals (fun m j b ne => ?_) (fun m ne => ?_) (fun j b => ?_) ?_ <;> rw [slots]
  · rw [fillsAt_dropSlot, and_iff_right ne]
  · rw [transfersAt_dropSlot, and_iff_right ne]
  · rw [fillsAt_dropSlot]
    exact fun ⟨ne, _⟩ => ne rfl
  · rw [transfersAt_dropSlot]
    exact fun ⟨ne, _⟩ => ne rfl

/-- R137: the slot of the current span is sealed under the next seal number. -/
theorem sealed (h : Sound x i base (some p)) (hp : p.slot = some n) (room : x.sealCount < 2 ^ 32 - 1) (state : s.state = .sealed)
    (sealNo : s.sealNo = some (x.sealCount + 1)) (slots : y.slots = putSlot n s x.slots) (size : y.slotCount = x.slotCount)
    (counter : y.sealCount = x.sealCount + 1) : Sound y i base none := by
  obtain ⟨t, ht, _⟩ := h.slot hp
  have fresh : x.FreshSeal n s (x.sealCount + 1) := by
    refine ⟨by simp [state, sealNo], fun k hk => ?_⟩
    obtain rfl := Option.some.inj (sealNo.symm.trans hk)
    refine ⟨Nat.succ_pos _, Nat.le_refl _, fun m u _ hu taken => ?_⟩
    have := ((goodSeals_iff h.table.1).mp h.seals).2.1 m u _ hu taken
    omega
  obtain ⟨table, seals⟩ := good_put h.table h.seals (slotAt_lt h.table ht) fresh (Nat.le_succ _) room slots size counter
  refine h.ended hp table seals (fun m j b ne => ?_) (fun m ne => ?_) (fun j b => ?_) ?_ <;> rw [slots]
  · exact fillsAt_putSlot_other ne
  · exact transfersAt_putSlot_other ne
  · rw [fillsAt_putSlot_same]
    simp [state]
  · rw [transfersAt_putSlot_same]
    simp [state]

/-- R124: the chunk of the current span takes input. -/
theorem rewrite (h : Sound x i base (some p)) (hp : p.slot = some n) {f : Slot → Slot}
    (keeps : ∀ t, (f t).state = t.state ∧ (f t).svc = t.svc ∧ (f t).start = t.start ∧ (f t).sealNo = t.sealNo)
    {q : Span} (slot : q.slot = p.slot) (start : q.start = p.start) : Sound (x.update n f) i base (some q) := by
  obtain ⟨t, ht, filling, svc, begun⟩ := h.slot hp
  obtain ⟨state', svc', start', sealNo'⟩ := keeps t
  have updated : x.update n f = { x with slots := putSlot n (f t) x.slots } := by
    unfold Store.update
    rw [ht]
  have fresh := freshSeal_of_slotAt h.table h.seals ht sealNo' (by rw [state'])
  obtain ⟨table, seals⟩ := good_put (y := x.update n f) h.table h.seals (slotAt_lt h.table ht) fresh (Nat.le_refl _) h.seals.2.2.2
    (by rw [updated]) (by rw [updated]) (by rw [updated])
  have here (j : Svc) (b : Mi) : FillsAt (putSlot n (f t) x.slots) n j b ↔ FillsAt x.slots n j b := by
    rw [fillsAt_putSlot_same, state', svc', start']
    simp [FillsAt, ht]
  have fills (m : Nat) (j : Svc) (b : Mi) : FillsAt (x.update n f).slots m j b ↔ FillsAt x.slots m j b := by
    rw [updated]
    by_cases e : m = n
    · subst e
      exact here j b
    · exact fillsAt_putSlot_other e
  have moves (m : Nat) : TransfersAt (x.update n f).slots m ↔ TransfersAt x.slots m := by
    rw [updated]
    by_cases e : m = n
    · subst e
      rw [transfersAt_putSlot_same, state']
      simp [TransfersAt, ht]
    · exact transfersAt_putSlot_other e
  refine ⟨table, seals, fun m j b ne => (fills m j b).trans (h.others m j b ne), fun m => (moves m).trans (h.transfers m),
    fun r m e hr => ?_, fun m b fillsAt => ?_⟩
  · obtain rfl := Option.some.inj e
    rw [fills, start]
    exact h.has p m rfl (slot.symm.trans hr)
  · obtain ⟨r, e, hr⟩ := h.only m b ((fills m i b).mp fillsAt)
    obtain rfl := Option.some.inj e
    exact ⟨q, rfl, slot.trans hr⟩

end Store.Sound

/-- R126, R127: the slot that is chosen is in the store, and neither FILLING nor IN_TRANSFER. -/
theorem Store.choose_idle {x : Store} (table : x.GoodTable) (r : ServiceRecord) {n : Nat}
    (chosen : x.choose r = .free n ∨ (∃ old, x.choose r = .reuse n old) ∨ ∃ old, x.choose r = .overwrite n old) :
    n < x.slotCount ∧ ∀ t, slotAt n x.slots = some t → t.state ≠ .filling ∧ t.state ≠ .inTransfer := by
  have found {p : Slot → Bool} {e : Nat × Slot} (low : lowestSeal (x.those p) = some e)
      (hp : ∀ s, p s = true → s.state ≠ .filling ∧ s.state ≠ .inTransfer) :
      e.1 < x.slotCount ∧ ∀ t, slotAt e.1 x.slots = some t → t.state ≠ .filling ∧ t.state ≠ .inTransfer := by
    obtain ⟨mem, holds⟩ := List.mem_filter.mp (lowestSeal_mem low)
    refine ⟨table.2 e mem, fun t ht => ?_⟩
    have here := (slotAt_eq_some_iff table.1).mpr mem
    obtain rfl := Option.some.inj (here.symm.trans ht)
    exact hp _ holds
  have reusable (s : Slot) (h : s.isReusable = true) : s.state ≠ .filling ∧ s.state ≠ .inTransfer := by
    unfold Slot.isReusable Slot.isArchived at h
    cases hs : s.state <;> simp_all
  have overwritable (s : Slot) (h : s.isOverwritable = true) : s.state ≠ .filling ∧ s.state ≠ .inTransfer := by
    unfold Slot.isOverwritable Slot.isSealed at h
    cases hs : s.state <;> simp_all
  have fromReusable (h : x.chooseReusable = .free n ∨ ∃ old, x.chooseReusable = .reuse n old) :
      n < x.slotCount ∧ ∀ t, slotAt n x.slots = some t → t.state ≠ .filling ∧ t.state ≠ .inTransfer := by
    unfold chooseReusable at h
    dsimp only at h
    split at h
    · next room =>
      rcases h with h | ⟨_, h⟩
      · cases h
        refine ⟨room, fun t ht => ?_⟩
        rw [slotAt_firstFree table.1 fun _ _ => Nat.zero_le _] at ht
        cases ht
      · cases h
    · split at h
      · next low =>
        rcases h with h | ⟨_, h⟩
        · cases h
        · cases h
          exact found low reusable
      · rcases h with h | ⟨_, h⟩ <;> cases h
  have fromOverwrite {old : Slot} {permitted : Bool} (h : x.chooseOverwrite permitted = .overwrite n old) :
      n < x.slotCount ∧ ∀ t, slotAt n x.slots = some t → t.state ≠ .filling ∧ t.state ≠ .inTransfer := by
    unfold chooseOverwrite at h
    split at h
    · split at h
      · next low =>
        cases h
        exact found low overwritable
      · cases h
    · cases h
  have reusableOnly {old : Slot} : x.chooseReusable ≠ .overwrite n old := by
    unfold chooseReusable
    dsimp only
    split
    · nofun
    · split <;> nofun
  have overwriteOnly {permitted : Bool} : x.chooseOverwrite permitted ≠ .free n ∧
      ∀ old, x.chooseOverwrite permitted ≠ .reuse n old := by
    unfold chooseOverwrite
    split
    · split <;> exact ⟨nofun, nofun⟩
    · exact ⟨nofun, nofun⟩
  unfold choose at chosen
  split at chosen
  · rcases chosen with h | ⟨_, h⟩ | ⟨_, h⟩ <;> cases h
  · split at chosen
    · rcases chosen with h | h | ⟨_, h⟩
      · exact fromReusable (.inl h)
      · exact fromReusable (.inr h)
      · exact absurd h reusableOnly
    · rcases chosen with h | ⟨_, h⟩ | ⟨_, h⟩
      · exact absurd h overwriteOnly.1
      · exact absurd h (overwriteOnly.2 _)
      · exact fromOverwrite h

namespace Work

/-- The work is in form between two arrivals: only an ACTIVE run has a span. -/
structure Sound (a : Around) (base : Store) (w : Work) : Prop where
  store : w.store.Sound a.svc base w.x.span
  idle : w.x.run ≠ .active → w.x.span = none

/-- The run is ACTIVE and no slot is FILLING for the service: its span has ended and the next has not begun. -/
structure Between (a : Around) (base : Store) (w : Work) : Prop where
  store : w.store.Sound a.svc base none
  active : w.x.run = .active

variable {w v : Work} {a : Around} {base : Store} {p : Span}

theorem Sound.congr (h : w.Sound a base) (store : v.store = w.store) (span : v.x.span = w.x.span) (run : v.x.run = w.x.run) :
    v.Sound a base := by
  obtain ⟨sound, idle⟩ := h
  exact ⟨by rwa [store, span], by rwa [run, span]⟩

theorem Between.congr (h : w.Between a base) (store : v.store = w.store) (run : v.x.run = w.x.run) : v.Between a base := by
  obtain ⟨sound, active⟩ := h
  exact ⟨by rwa [store], run.trans active⟩

theorem setRecording_fields (w : Work) (a : Around) (state : Recording) (m : Mi) :
    (w.setRecording a state m).store = w.store ∧ (w.setRecording a state m).x.span = w.x.span ∧
      (w.setRecording a state m).x.run = w.x.run := by
  unfold setRecording
  dsimp only
  split <;> exact ⟨rfl, rfl, rfl⟩

theorem Sound.setRecording (h : w.Sound a base) (state : Recording) (m : Mi) : (w.setRecording a state m).Sound a base := by
  obtain ⟨store, span, run⟩ := w.setRecording_fields a state m
  exact h.congr store span run

theorem Between.setRecording (h : w.Between a base) (state : Recording) (m : Mi) : (w.setRecording a state m).Between a base := by
  obtain ⟨store, _, run⟩ := w.setRecording_fields a state m
  exact h.congr store run

theorem Sound.testBacklog (h : w.Sound a base) : (w.testBacklog a).Sound a base := ⟨h.store.testBacklog _, h.idle⟩

theorem Between.testBacklog (h : w.Between a base) : (w.testBacklog a).Between a base := ⟨h.store.testBacklog _, h.active⟩

theorem Between.fill (h : w.Between a base) {n : Nat} (below : n < w.store.slotCount)
    (idle : ∀ t, slotAt n w.store.slots = some t → t.state ≠ .filling ∧ t.state ≠ .inTransfer) (b : Mi) :
    (w.fill a b n).Sound a base where
  store := h.store.fill (s := w.newSlot a b) (y := (w.fill a b n).store) below idle rfl rfl rfl rfl rfl rfl
  idle ne := absurd h.active ne

/-- R126 to R130: the next span opens. -/
theorem Between.openSpan (h : w.Between a base) (b m : Mi) : (w.openSpan a b m).Sound a base := by
  unfold Work.openSpan
  split
  · next n chosen =>
    obtain ⟨below, idle⟩ := Store.choose_idle h.store.table w.x.record (.inl chosen)
    exact (h.fill below idle b).setRecording _ _
  · next n old chosen =>
    obtain ⟨below, idle⟩ := Store.choose_idle h.store.table w.x.record (.inr (.inl ⟨old, chosen⟩))
    exact (Between.fill (w := w.say _) ⟨h.store, h.active⟩ below idle b).setRecording _ _
  · next n old chosen =>
    obtain ⟨below, idle⟩ := Store.choose_idle h.store.table w.x.record (.inr (.inr ⟨old, chosen⟩))
    exact (Between.fill (w := w.say _) ⟨h.store, h.active⟩ below idle b).testBacklog.setRecording _ _
  · refine Sound.setRecording (w := { w with x := { w.x with span := some ⟨b, none, 0⟩ } }) ⟨?_, fun ne => absurd h.active ne⟩ _ _
    exact (Store.Sound.gap_iff rfl).mpr h.store

theorem giveUp_between (store : w.store.Sound a.svc base (some p)) (active : w.x.run = .active) {n : Nat} (hp : p.slot = some n)
    (start : Mi) : (w.giveUp a n start).Between a base := ⟨store.drop hp rfl rfl rfl, active⟩

/-- R137, R139: the chunk of the current span ends. -/
theorem endChunk_between (store : w.store.Sound a.svc base (some p)) (active : w.x.run = .active) {n : Nat} (hp : p.slot = some n)
    (s : Slot) (e : Mi) (cut : Bool) : (w.endChunk a n s e cut).Between a base := by
  unfold endChunk max32
  split
  · exact Between.setRecording (w := (w.giveUp a n s.start).recordGap a s.start)
      ⟨(giveUp_between store active hp s.start).store, active⟩ _ _
  · next room => exact ⟨store.sealed hp (Nat.lt_of_not_le room) rfl rfl rfl rfl rfl, active⟩

theorem endSpan_between (store : w.store.Sound a.svc base (some p)) (active : w.x.run = .active) : (w.endSpan a p).Between a base := by
  unfold endSpan
  split
  · next gap => exact ⟨(Store.Sound.gap_iff gap).mp store, active⟩
  · next n slot =>
    obtain ⟨s, hs, _⟩ := store.slot slot
    rw [hs]
    exact endChunk_between store active slot ..

theorem Sound.applyItem (h : w.Sound a base) (span : w.x.span = some p) (i : HeldItem) : (w.applyItem p i).Sound a base := by
  have store := h.store
  rw [span] at store
  have active : w.x.run = .active := by
    by_contra ne
    rw [h.idle ne] at span
    cases span
  unfold Work.applyItem
  split
  · exact h
  · refine ⟨?_, fun ne => absurd active ne⟩
    cases slot : p.slot with
    | none =>
      refine (Store.Sound.gap_iff ?_).mpr ((Store.Sound.gap_iff slot).mp store)
      rfl
    | some n =>
      refine store.rewrite slot (fun _ => ?_) ?_ ?_
      · exact ⟨rfl, rfl, rfl, rfl⟩
      · exact slot.symm
      · rfl

theorem Sound.sort (h : w.Sound a base) (i : HeldItem) : (w.sort i).Sound a base := by
  unfold Work.sort
  split
  · exact h
  · next p span =>
    split
    · exact h
    · split
      · exact h.applyItem span i
      · exact h.congr rfl rfl rfl

theorem Sound.foldl_sort (h : w.Sound a base) (l : List HeldItem) : (l.foldl Work.sort w).Sound a base := by
  induction l generalizing w with
  | nil => exact h
  | cons i l ih => exact ih (h.sort i)

theorem Sound.sortHeld (h : w.Sound a base) : w.sortHeld.Sound a base :=
  Sound.foldl_sort (w := { w with x := { w.x with held := [] } }) (h.congr rfl rfl rfl) _

theorem Sound.takeItem (h : w.Sound a base) (i : HeldItem) : (w.takeItem i).Sound a base := by
  unfold Work.takeItem
  split
  · split
    · exact h
    · exact h.congr rfl rfl rfl
    · exact h.sort i
  · exact h

theorem passed_eq_some {w : Work} {p : Span} (h : w.passed = some p) : w.x.run = .active ∧ w.x.span = some p := by
  unfold passed at h
  split at h
  · next run span _ =>
    split at h
    · cases h
      exact ⟨run, span⟩
    · cases h
  · cases h

theorem Sound.boundary (h : w.Sound a base) : (w.boundary a).Sound a base := by
  unfold Work.boundary
  split
  · exact h
  · next p passed =>
    obtain ⟨active, span⟩ := passed_eq_some passed
    have store := h.store
    rw [span] at store
    exact ((endSpan_between store active).testBacklog.openSpan _ _).sortHeld

theorem Sound.boundaries (h : w.Sound a base) (fuel : Nat) : (Work.boundaries a fuel w).Sound a base := by
  induction fuel generalizing w with
  | zero => exact h
  | succ fuel ih =>
    unfold Work.boundaries
    split
    · exact h
    · exact ih h.boundary

theorem Sound.settle (h : w.Sound a base) : (w.settle a).Sound a base := h.boundaries _

theorem Sound.onAir (h : w.Sound a base) (m : OnAirMsg) : (w.onAir a m).Sound a base := by
  unfold Work.onAir
  split
  · exact h
  · exact h.congr rfl rfl rfl
  · next waiting =>
    have none : w.x.span = none := h.idle (by simp [waiting])
    have store := h.store
    rw [none] at store
    dsimp only
    split
    · refine Sound.sortHeld (Between.openSpan ⟨?_, rfl⟩ _ _)
      exact store
    · refine ⟨?_, fun ne => absurd rfl ne⟩
      dsimp only
      rw [none]
      exact store

theorem cutSpan_store (store : w.store.Sound a.svc base (some p)) (active : w.x.run = .active) (e : Mi) :
    (w.cutSpan a p e).store.Sound a.svc base none := by
  unfold cutSpan
  dsimp only
  split
  · next gap =>
    have ended := (Store.Sound.gap_iff gap).mp store
    split <;> exact ended
  · next n slot =>
    obtain ⟨s, hs, _⟩ := store.slot slot
    rw [hs]
    dsimp only
    split
    · exact (endChunk_between store active slot _ _ _).store
    · exact (giveUp_between store active slot _).store

theorem sound_idle (h : w.store.Sound a.svc base none) : w.idle.Sound a base := ⟨h, fun _ => rfl⟩

theorem Sound.cut (h : w.Sound a base) (active : w.x.run = .active) (e : Mi) : (w.cut a e).Sound a base := by
  have store := h.store
  unfold Work.cut
  split
  · next none =>
    rw [none] at store
    exact sound_idle store
  · next p span =>
    rw [span] at store
    exact sound_idle (cutSpan_store store active e)

theorem Sound.ended (h : w.Sound a base) (run : w.x.run ≠ .active) : w.idle.Sound a base := by
  have store := h.store
  rw [h.idle run] at store
  exact sound_idle store

theorem Sound.runEnded (h : w.Sound a base) (endMi : Option Mi) : (w.runEnded a endMi).Sound a base := by
  unfold Work.runEnded
  split
  · exact h
  · next waiting => exact h.ended (by simp [waiting])
  · exact h
  · next active => exact (h.cut active _).testBacklog

theorem Sound.takeTick (h : w.Sound a base) (t : Mi) : (w.takeTick t).Sound a base := by
  unfold Work.takeTick
  split
  · exact h
  · exact h.congr rfl rfl rfl

theorem Sound.warmReset (h : w.Sound a base) : (w.warmReset a).Sound a base := by
  unfold Work.warmReset
  dsimp only
  split
  · next active => exact (h.cut active _).congr rfl rfl rfl
  · next waiting => exact (h.ended (by simp [waiting])).congr rfl rfl rfl
  · next idle => exact (h.ended (by simp [idle])).congr rfl rfl rfl

end Work

/-! ### The part (R122, R158) -/

namespace State

variable {s t : State}

theorem goodSpans_iff (s : State) :
    s.GoodSpans ↔ (∀ i : Svc, s.recorder[i].run ≠ .active → s.recorder[i].span = none) ∧
      (∀ (i : Svc) p n, s.recorder[i].span = some p → p.slot = some n → FillsAt s.store.slots n i p.start) ∧
      ∀ n i b, FillsAt s.store.slots n i b → ∃ p, s.recorder[i].span = some p ∧ p.slot = some n := by
  refine and_congr Iff.rfl (and_congr Iff.rfl ⟨?_, ?_⟩)
  · rintro all n _ _ ⟨x, hx, state, rfl, rfl⟩
    exact all n x hx state
  · exact fun all n x hx state => all n x.svc x.start ⟨x, hx, state, rfl, rfl⟩

theorem goodTakes_iff (s : State) :
    s.GoodTakes ↔ s.archive.takes.length ≤ 8 ∧ (s.archive.takes.map (·.slot)).Nodup ∧
      (∀ t ∈ s.archive.takes, TransfersAt s.store.slots t.slot) ∧
      ∀ n, TransfersAt s.store.slots n → ∃ t ∈ s.archive.takes, t.slot = n := by
  refine and_congr Iff.rfl (and_congr Iff.rfl (and_congr Iff.rfl ⟨?_, ?_⟩))
  · rintro all n ⟨x, hx, state⟩
    exact all n x hx state
  · exact fun all n x hx state => all n ⟨x, hx, state⟩

theorem GoodStore.work (h : s.GoodStore) (i : Svc) : (s.work i).Sound (s.around i) s.store := by
  obtain ⟨table, seals, spans, _⟩ := h
  obtain ⟨idle, has, only⟩ := s.goodSpans_iff.mp spans
  exact ⟨⟨table, seals, fun _ _ _ _ => Iff.rfl, fun _ => Iff.rfl, has i, fun n b => only n i b⟩, idle i⟩

/-- The recorder's work for one service, done on a good store, leaves one. -/
theorem GoodStore.worked (h : s.GoodStore) {i : Svc} {w : Work} (sound : w.Sound (s.around i) s.store) :
    (s.worked i w).GoodStore := by
  obtain ⟨_, _, spans, takes⟩ := h
  obtain ⟨idle, has, only⟩ := s.goodSpans_iff.mp spans
  obtain ⟨places, nodup, inTable, listed⟩ := s.goodTakes_iff.mp takes
  obtain ⟨⟨table, seals, others, transfers, hasHere, onlyHere⟩, idleHere⟩ := sound
  have store : (s.worked i w).store = w.store := State.worked_store ..
  have archive : (s.worked i w).archive = s.archive := State.worked_archive ..
  have here : (s.worked i w).recorder[i] = w.x := by
    rw [State.worked_recorder]
    simp
  have there {j : Svc} (ne : j ≠ i) : (s.worked i w).recorder[j] = s.recorder[j] := by
    rw [State.worked_recorder]
    have : (i : Nat) ≠ j := fun h => ne (Fin.ext h.symm)
    simp [this]
  refine ⟨store ▸ table, store ▸ seals, (goodSpans_iff _).mpr ⟨fun j => ?_, fun j p n => ?_, fun n j b => ?_⟩,
    (goodTakes_iff _).mpr ⟨?_, ?_, fun t ht => ?_, fun n hn => ?_⟩⟩
  · by_cases e : j = i
    · subst e
      rw [here]
      exact idleHere
    · rw [there e]
      exact idle j
  · rw [store]
    by_cases e : j = i
    · subst e
      rw [here]
      exact hasHere p n
    · rw [there e, others n j p.start e]
      exact has j p n
  · rw [store]
    by_cases e : j = i
    · subst e
      rw [here]
      exact onlyHere n b
    · rw [there e, others n j b e]
      exact only n j b
  · rw [archive]
    exact places
  · rw [archive]
    exact nodup
  · rw [archive] at ht
    rw [store, transfers]
    exact inTable t ht
  · rw [store, transfers] at hn
    rw [archive]
    exact listed n hn

/-- What the form of the store rests on. -/
theorem GoodStore.congr (h : s.GoodStore) (slots : t.store.slots = s.store.slots) (size : t.store.slotCount = s.store.slotCount)
    (counter : t.store.sealCount = s.store.sealCount) (recorder : t.recorder = s.recorder)
    (takes : t.archive.takes = s.archive.takes) : t.GoodStore := by
  unfold GoodStore Store.GoodTable Store.GoodSeals GoodSpans GoodTakes
  rw [slots, size, counter, recorder, takes]
  exact h

theorem GoodStore.of_eq (h : s.GoodStore) (store : t.store = s.store) (recorder : t.recorder = s.recorder)
    (archive : t.archive = s.archive) : t.GoodStore :=
  h.congr (by rw [store]) (by rw [store]) (by rw [store]) recorder (by rw [archive])

theorem GoodStore.testBacklog (h : s.GoodStore) : s.testBacklog.GoodStore := by
  refine h.congr (State.testBacklog_slots s) ?_ ?_ (State.testBacklog_recorder s) (congrArg Archive.takes (State.testBacklog_archive s))
  · rw [State.testBacklog_store, Store.testBacklog_eq]
  · rw [State.testBacklog_store, Store.testBacklog_eq]

/-- R145: hold counts are no matter of the spans and the takes. -/
theorem GoodStore.countHold (h : s.GoodStore) (g : Hold) (f : Nat → Nat) (holds : Vector (Option Hold) 32) :
    { s with holds := holds, store := s.store.countHold g f : State }.GoodStore := by
  obtain ⟨table, seals, spans, takes⟩ := h
  let change (x : Slot) : Slot := if g.covers x then { x with holdCount := f x.holdCount } else x
  have slots : (s.store.countHold g f).slots = s.store.slots.map fun e => (e.1, change e.2) := by
    refine List.map_congr_left fun e _ => ?_
    dsimp only [change]
    split <;> rfl
  have same (x : Slot) : (change x).state = x.state ∧ (change x).svc = x.svc ∧ (change x).start = x.start ∧
      (change x).sealNo = x.sealNo := by
    dsimp only [change]
    split <;> exact ⟨rfl, rfl, rfl, rfl⟩
  have keeps (x : Slot) : ((change x).state = .filling ↔ x.state = .filling) ∧ (change x).svc = x.svc ∧
      (change x).start = x.start := ⟨by rw [(same x).1], (same x).2.1, (same x).2.2.1⟩
  obtain ⟨table', seals'⟩ := Store.good_map (f := change) table seals
    (fun x => ⟨(same x).2.2.2, (keeps x).1⟩) slots rfl rfl
  have moves (n : Nat) : TransfersAt (s.store.countHold g f).slots n ↔ TransfersAt s.store.slots n := by
    rw [slots, transfersAt_map]
    simp only [(same _).1]
    rfl
  obtain ⟨idle, has, only⟩ := s.goodSpans_iff.mp spans
  obtain ⟨places, nodup, inTable, listed⟩ := s.goodTakes_iff.mp takes
  refine ⟨table', seals', (goodSpans_iff _).mpr ⟨idle, fun i p n => ?_, fun n i b => ?_⟩,
    (goodTakes_iff _).mpr ⟨places, nodup, fun t ht => (moves _).mpr (inTable t ht), fun n hn => listed n ((moves n).mp hn)⟩⟩
  · rw [slots, fillsAt_map keeps]
    exact has i p n
  · rw [slots, fillsAt_map keeps]
    exact only n i b

/-- R168: every slot IN_TRANSFER is SEALED again, and its take ended. -/
theorem GoodStore.returnAll (h : s.GoodStore) (token : Nat) :
    { s with store := s.store.returnAll, archive := ⟨[], token⟩ : State }.GoodStore := by
  obtain ⟨table, seals, spans, _⟩ := h
  let change (x : Slot) : Slot := if x.isInTransfer then { x with state := .sealed } else x
  have slots : s.store.returnAll.slots = s.store.slots.map fun e => (e.1, change e.2) := by
    refine List.map_congr_left fun e _ => ?_
    dsimp only [change]
    split <;> rfl
  have keeps (x : Slot) : ((change x).state = .filling ↔ x.state = .filling) ∧ (change x).svc = x.svc ∧
      (change x).start = x.start := by
    dsimp only [change]
    split
    · next moving =>
      have : x.state = .inTransfer := by simpa [Slot.isInTransfer] using moving
      simp [this]
    · exact ⟨Iff.rfl, rfl, rfl⟩
  have sealNo (x : Slot) : (change x).sealNo = x.sealNo := by
    dsimp only [change]
    split <;> rfl
  have returned (x : Slot) : (change x).state ≠ .inTransfer := by
    dsimp only [change]
    split
    · nofun
    · next stays => simpa [Slot.isInTransfer] using stays
  obtain ⟨table', seals'⟩ := Store.good_map (f := change) table seals (fun x => ⟨sealNo x, (keeps x).1⟩) slots rfl rfl
  obtain ⟨idle, has, only⟩ := s.goodSpans_iff.mp spans
  refine ⟨table', seals', (goodSpans_iff _).mpr ⟨idle, fun i p n => ?_, fun n i b => ?_⟩,
    (goodTakes_iff _).mpr ⟨Nat.zero_le _, List.nodup_nil, fun t ht => (List.not_mem_nil ht).elim, fun n hn => ?_⟩⟩
  · rw [slots, fillsAt_map keeps]
    exact has i p n
  · rw [slots, fillsAt_map keeps]
    exact only n i b
  · rw [slots, transfersAt_map] at hn
    obtain ⟨x, _, moving⟩ := hn
    exact absurd moving (returned x)

/-- A slot that is not FILLING enters another state that is not. -/
theorem good_update (table : s.store.GoodTable) (seals : s.store.GoodSeals) {n : Nat} {x : Slot} (hx : slotAt n s.store.slots = some x)
    (old : x.state ≠ .filling) {state : SlotState} (new : state ≠ .filling) :
    let y := s.store.update n fun z => { z with state := state }
    y.GoodTable ∧ y.GoodSeals ∧ (∀ m i b, FillsAt y.slots m i b ↔ FillsAt s.store.slots m i b) ∧
      (∀ m, m ≠ n → (TransfersAt y.slots m ↔ TransfersAt s.store.slots m)) ∧ (TransfersAt y.slots n ↔ state = .inTransfer) := by
  have updated : s.store.update n (fun z => { z with state := state }) =
      { s.store with slots := putSlot n { x with state := state } s.store.slots } := by
    unfold Store.update
    rw [hx]
  have fresh := Store.freshSeal_of_slotAt (t := { x with state := state }) table seals hx rfl (iff_of_false new old)
  obtain ⟨table', seals'⟩ := Store.good_put (y := s.store.update n fun z => { z with state := state }) table seals
    (Store.slotAt_lt table hx) fresh (Nat.le_refl _) seals.2.2.2 (by rw [updated]) (by rw [updated]) (by rw [updated])
  dsimp only
  refine ⟨table', seals', fun m i b => ?_, fun m ne => ?_, ?_⟩ <;> rw [updated]
  · by_cases e : m = n
    · subst e
      rw [fillsAt_putSlot_same]
      refine iff_of_false (fun h => new h.1) ?_
      rintro ⟨y, hy, filling, _⟩
      obtain rfl := Option.some.inj (hy.symm.trans hx)
      exact old filling
    · exact fillsAt_putSlot_other e
  · exact transfersAt_putSlot_other ne
  · exact transfersAt_putSlot_same

/-- R158: a take ends and its slot leaves IN_TRANSFER. -/
theorem GoodStore.endTake (h : s.GoodStore) {n : Nat} (moving : TransfersAt s.store.slots n) {state : SlotState}
    (new : state ≠ .filling) (left : state ≠ .inTransfer) : (s.endTake n state).GoodStore := by
  obtain ⟨table, seals, spans, takes⟩ := h
  obtain ⟨x, hx, transfer⟩ := moving
  obtain ⟨table', seals', fills, others, here⟩ := good_update table seals hx (by simp [transfer]) new
  obtain ⟨idle, has, only⟩ := s.goodSpans_iff.mp spans
  obtain ⟨places, nodup, inTable, listed⟩ := s.goodTakes_iff.mp takes
  refine ⟨table', seals', (goodSpans_iff _).mpr ⟨idle, fun i p m e slot => (fills m i p.start).mpr (has i p m e slot),
    fun m i b f => only m i b ((fills m i b).mp f)⟩, (goodTakes_iff _).mpr ⟨?_, ?_, fun t ht => ?_, fun m hm => ?_⟩⟩
  · exact (List.length_filter_le ..).trans places
  · exact nodup.sublist (List.filter_sublist.map _)
  · obtain ⟨mem, ne⟩ := List.mem_filter.mp ht
    exact (others t.slot (by simpa using ne)).mpr (inTable t mem)
  · have ne : m ≠ n := by
      rintro rfl
      exact left (here.mp hm)
    obtain ⟨t, mem, rfl⟩ := listed m ((others m ne).mp hm)
    exact ⟨t, List.mem_filter.mpr ⟨mem, by simpa using ne⟩, rfl⟩

theorem matchedTake_transfers {n token : Nat} {r : Take × Slot} (h : s.matchedTake n token = some r) :
    TransfersAt s.store.slots n := by
  unfold matchedTake at h
  split at h
  · next x _ hx =>
    split at h
    · next both => exact ⟨x, hx, by simpa [Slot.isInTransfer] using (Bool.and_eq_true_iff.mp both).1⟩
    · cases h
  · cases h

theorem GoodStore.expireTake (h : s.GoodStore) (begun : Option Mi) {t : Take} (flying : TransfersAt s.store.slots t.slot) :
    (s.expireTake begun t).GoodStore := by
  unfold State.expireTake
  split
  · exact h
  · refine GoodStore.testBacklog ?_
    exact GoodStore.endTake h flying nofun nofun

/-- R159: as many takes as slots IN_TRANSFER. -/
theorem GoodStore.takes_length (h : s.GoodStore) : s.archive.takes.length ≤ (s.store.those Slot.isInTransfer).length := by
  obtain ⟨table, _, _, takes⟩ := h
  obtain ⟨_, nodup, inTable, _⟩ := s.goodTakes_iff.mp takes
  have sub : s.archive.takes.map (·.slot) ⊆ (s.store.those Slot.isInTransfer).map (·.1) := by
    intro n hn
    obtain ⟨t, ht, rfl⟩ := List.mem_map.mp hn
    obtain ⟨x, hx, moving⟩ := inTable t ht
    refine List.mem_map.mpr ⟨(t.slot, x), List.mem_filter.mpr ⟨Counted.mem_of_slotAt hx, ?_⟩, rfl⟩
    simpa [Slot.isInTransfer] using moving
  simpa using (List.subperm_of_subset nodup sub).length_le

/-- R159: the head of the queue is handed out. -/
theorem GoodStore.handOut (h : s.GoodStore) (room : (s.store.those Slot.isInTransfer).length < 8) {e : Nat × Slot}
    (head : s.store.queueHead = some e) (duration : Nat) : (s.handOut e.1 duration).GoodStore := by
  have few := h.takes_length
  obtain ⟨table, seals, spans, takes⟩ := h
  obtain ⟨mem, isSealed⟩ := List.mem_filter.mp (lowestSeal_mem head)
  replace isSealed : e.2.state = .sealed := by simpa [Slot.isSealed] using isSealed
  have hx := (slotAt_eq_some_iff table.1).mpr mem
  obtain ⟨table', seals', fills, others, here⟩ := good_update (state := .inTransfer) table seals hx (by simp [isSealed]) nofun
  obtain ⟨idle, has, only⟩ := s.goodSpans_iff.mp spans
  obtain ⟨places, nodup, inTable, listed⟩ := s.goodTakes_iff.mp takes
  have resting : ¬ TransfersAt s.store.slots e.1 := by
    rintro ⟨y, hy, moving⟩
    obtain rfl := Option.some.inj (hy.symm.trans hx)
    cases isSealed.symm.trans moving
  refine ⟨table', seals', (goodSpans_iff _).mpr ⟨idle, fun i p m e slot => (fills m i p.start).mpr (has i p m e slot),
    fun m i b f => only m i b ((fills m i b).mp f)⟩, (goodTakes_iff _).mpr ⟨?_, ?_, fun t ht => ?_, fun m hm => ?_⟩⟩
  · simp only [State.handOut, List.length_append, List.length_singleton]
    omega
  · simp only [State.handOut, List.map_append, List.map_cons, List.map_nil]
    refine List.Nodup.append nodup (List.nodup_singleton _) ?_
    rw [List.disjoint_singleton]
    intro mem
    obtain ⟨t, ht, same⟩ := List.mem_map.mp mem
    exact resting (same ▸ inTable t ht)
  · rcases List.mem_append.mp ht with ht | ht
    · have ne : t.slot ≠ e.1 := fun same => resting (same ▸ inTable t ht)
      exact (others t.slot ne).mpr (inTable t ht)
    · obtain rfl := List.mem_singleton.mp ht
      exact here.mpr rfl
  · by_cases same : m = e.1
    · exact ⟨_, List.mem_append_right _ (List.mem_singleton_self _), same.symm⟩
    · obtain ⟨t, ht, slot⟩ := listed m ((others m same).mp hm)
      exact ⟨t, List.mem_append_left _ ht, slot⟩

/-- R120: a store in which nothing is FILLING, SEALED or IN_TRANSFER is emptied. -/
theorem GoodStore.configured (h : s.GoodStore) (unused : s.store.inUse = false) (n : Nat) :
    { s with store := s.store.configured n : State }.GoodStore := by
  obtain ⟨table, seals, spans, takes⟩ := h
  have archived {n : Nat} {x : Slot} (hx : slotAt n s.store.slots = some x) : x.isArchived = true := by
    have := List.any_eq_false.mp unused _ (Counted.mem_of_slotAt hx)
    simpa using this
  have no_fill (n : Nat) (i : Svc) (b : Mi) : ¬ FillsAt s.store.slots n i b := by
    rintro ⟨x, hx, filling, _⟩
    have := archived hx
    rw [Slot.isArchived, filling] at this
    cases this
  have no_transfer (n : Nat) : ¬ TransfersAt s.store.slots n := by
    rintro ⟨x, hx, moving⟩
    have := archived hx
    rw [Slot.isArchived, moving] at this
    cases this
  obtain ⟨idle, has, _⟩ := s.goodSpans_iff.mp spans
  obtain ⟨places, nodup, inTable, _⟩ := s.goodTakes_iff.mp takes
  have empty_fill (n : Nat) (i : Svc) (b : Mi) : ¬ FillsAt [] n i b := by
    rintro ⟨_, hx, _⟩
    cases hx
  refine ⟨⟨rfl, nofun⟩, ⟨nofun, nofun, .nil, seals.2.2.2⟩, (goodSpans_iff _).mpr ⟨idle, fun i p n e slot => ?_, fun n i b f => ?_⟩,
    (goodTakes_iff _).mpr ⟨places, nodup, fun t ht => ?_, fun n hn => ?_⟩⟩
  · exact absurd (has i p n e slot) (no_fill n i p.start)
  · exact absurd f (empty_fill n i b)
  · exact absurd (inTable t ht) (no_transfer t.slot)
  · obtain ⟨_, hx, _⟩ := hn
    cases hx

theorem GoodStore.runStarted (h : s.GoodStore) (i : Svc) (r : ServiceRecord) :
    (s.setRecorder i (s.recorder[i].runStarted r)).GoodStore := by
  have sound := h.work i
  refine GoodStore.worked (w := { s.work i with x := s.recorder[i].runStarted r }) h ?_ |>.of_eq rfl rfl rfl
  unfold RecorderSvc.runStarted
  split
  · next idle =>
    have store := sound.store
    have off : (s.work i).x.run ≠ .active := by
      rw [show (s.work i).x.run = .idle from idle]
      decide
    rw [sound.idle off] at store
    exact ⟨store, fun _ => rfl⟩
  · exact sound

theorem expireTake_transfers (s : State) (begun : Option Mi) (t : Take) {n : Nat} (ne : n ≠ t.slot) :
    TransfersAt (s.expireTake begun t).store.slots n ↔ TransfersAt s.store.slots n := by
  unfold State.expireTake
  split
  · exact Iff.rfl
  · next x hx =>
    rw [State.testBacklog_slots]
    show TransfersAt (s.store.update t.slot _).slots n ↔ _
    unfold Store.update
    rw [hx]
    exact transfersAt_putSlot_other ne

/-- R164: the takes that expire at an edge, one after the other. -/
theorem GoodStore.foldl_expireTake (h : s.GoodStore) (begun : Option Mi) {l : List Take} (nodup : (l.map (·.slot)).Nodup)
    (flying : ∀ t ∈ l, TransfersAt s.store.slots t.slot) : (l.foldl (fun x t => x.expireTake begun t) s).GoodStore := by
  induction l generalizing s with
  | nil => exact h
  | cons t l ih =>
    obtain ⟨fresh, nodup⟩ := List.nodup_cons.mp nodup
    refine ih (h.expireTake begun (flying t List.mem_cons_self)) nodup fun u hu => ?_
    have ne : u.slot ≠ t.slot := fun e => fresh (List.mem_map.mpr ⟨u, hu, e⟩)
    exact (s.expireTake_transfers begun t ne).mpr (flying u (List.mem_cons_of_mem t hu))

/-- R164: the timers are no matter of the slots. -/
theorem GoodStore.countDown (h : s.GoodStore) : { s with archive := s.archive.countDown : State }.GoodStore := by
  obtain ⟨table, seals, spans, takes⟩ := h
  obtain ⟨places, nodup, inTable, listed⟩ := s.goodTakes_iff.mp takes
  refine ⟨table, seals, spans, (goodTakes_iff _).mpr ⟨?_, ?_, fun t ht => ?_, fun n hn => ?_⟩⟩
  · simpa [Archive.countDown] using places
  · simpa [Archive.countDown, Function.comp_def] using nodup
  · obtain ⟨t₀, mem, rfl⟩ := List.mem_map.mp ht
    exact inTable t₀ mem
  · obtain ⟨t, mem, slot⟩ := listed n hn
    exact ⟨_, List.mem_map_of_mem mem, slot⟩

end State

theorem exec_store_good {c : Instr} {s t : State} (hc : c.part = .store) (h : exec c s = .next t) (good : s.GoodStore) :
    t.GoodStore := by
  have same {u : State} (store : u.store = s.store) (recorder : u.recorder = s.recorder) (archive : u.archive = s.archive) :
      u.GoodStore := good.of_eq store recorder archive
  have arrived (c : Instr) : (s.arrive c).GoodStore := same rfl rfl rfl
  have answered {u : State} (hu : u.GoodStore) (rq : Req) (st : Status) (a : Answer) : (u.respond rq st a).GoodStore :=
    hu.of_eq (State.respond_store ..) (State.respond_recorder ..) (State.respond_archive ..)
  have refused {u : State} (hu : u.GoodStore) (rq : Req) (st : Status) : (u.refuse rq st).GoodStore := answered hu ..
  cases c <;> cases hc <;> obtain rfl := Host.Outcome.next.inj h
  case recorderRunStarted i => exact State.GoodStore.runStarted (arrived _) i _
  case onAirMessage i m => exact State.GoodStore.worked (arrived _) ((good.work i).onAir m).settle
  case recorderRunEnded i e => exact State.GoodStore.worked (arrived _) ((good.work i).runEnded e)
  case recorderSampleFrame i m _ | recorderJudgment i m _ | recorderCaptionPacket i m _ | recorderProxyFrame i m _ =>
    exact State.GoodStore.worked (arrived _) ((good.work i).takeItem _).settle
  case recorderMiTick t =>
    refine State.foldl_induction State.GoodStore (fun u i hu => ?_) _ (arrived _)
    exact hu.worked ((hu.work i).takeTick t).settle
  case spanBoundary i => exact good.worked (good.work i).boundary
  case configureStore =>
    split
    · exact refused (arrived _) _ _
    · next free =>
      rw [Bool.or_eq_true, not_or, Bool.not_eq_true] at free
      refine answered ?_ _ _ _
      exact (State.GoodStore.configured good free.1 _).of_eq rfl rfl rfl
  case setReserves =>
    split
    · exact refused (arrived _) _ _
    · refine answered (State.GoodStore.testBacklog ?_) _ _ _
      exact good.congr rfl rfl rfl rfl rfl
  case createHold =>
    split
    · exact refused (arrived _) _ _
    · split
      · exact refused (arrived _) _ _
      · split
        · exact refused (arrived _) _ _
        · exact answered (State.GoodStore.countHold (arrived _) _ _ _) _ _ _
  case automaticHoldRequest =>
    split
    · exact same rfl rfl rfl
    · next n _ =>
      refine State.GoodStore.of_eq (s := (s.arrive _).createHold n _) ?_ rfl rfl rfl
      exact State.GoodStore.countHold (arrived _) _ _ _
  case releaseHold =>
    split
    · exact refused (arrived _) _ _
    · split
      · exact refused (arrived _) _ _
      · split
        · exact refused (arrived _) _ _
        · exact answered (State.GoodStore.countHold (arrived _) _ _ _) _ _ _
  case fixHold =>
    split
    · exact refused (arrived _) _ _
    · split
      · exact refused (arrived _) _ _
      · refine answered ?_ _ _ _
        exact same rfl rfl rfl
  case take =>
    split
    · exact refused (arrived _) _ _
    · split
      · exact refused (arrived _) _ _
      · next room =>
        split
        · exact refused (arrived _) _ _
        · next e head =>
          refine answered (State.GoodStore.testBacklog ?_) _ _ _
          exact State.GoodStore.handOut (arrived _) (Nat.lt_of_not_le room) head _
  case confirm =>
    split
    · exact refused (arrived _) _ _
    · split
      · next found =>
        refine answered ?_ _ _ _
        exact State.GoodStore.endTake (arrived _) (State.matchedTake_transfers found) nofun nofun
      · split
        · exact answered (arrived _) _ _ _
        · exact refused (arrived _) _ _
  case returnTake =>
    split
    · exact refused (arrived _) _ _
    · split
      · exact refused (arrived _) _ _
      · next found =>
        refine answered (State.GoodStore.testBacklog ?_) _ _ _
        exact State.GoodStore.endTake (arrived _) (State.matchedTake_transfers found) nofun nofun
  case archivePeriodEdge begun =>
    obtain ⟨_, nodup, inTable, _⟩ := s.goodTakes_iff.mp good.2.2.2
    have down : (s.archive.countDown.takes.map (·.slot)) = s.archive.takes.map (·.slot) := by
      simp [Archive.countDown, Function.comp_def]
    refine State.GoodStore.foldl_expireTake (State.GoodStore.countDown (arrived (.archivePeriodEdge begun))) begun ?_ fun t ht => ?_
    · exact (down ▸ nodup : (s.archive.countDown.takes.map (·.slot)).Nodup).sublist (List.filter_sublist.map _)
    · obtain ⟨t₀, mem, rfl⟩ := List.mem_map.mp (List.mem_of_mem_filter ht)
      exact inTable t₀ mem
  case takeTimerExpiry slot =>
    split
    · exact good
    · next found =>
      split
      · obtain ⟨_, _, inTable, _⟩ := s.goodTakes_iff.mp good.2.2.2
        exact good.expireTake _ (inTable _ (List.mem_of_find?_eq_some found))
      · exact good

theorem State.GoodStore.warmRecorder {s : State} (good : s.GoodStore) : s.warmRecorder.GoodStore := by
  have cut : (allSvcs.foldl (fun x i => x.worked i ((x.work i).warmReset (x.around i))) s).GoodStore :=
    State.foldl_induction State.GoodStore (fun u i hu => hu.worked (hu.work i).warmReset) allSvcs good
  exact (cut.returnAll _).testBacklog

theorem State.goodStore_reset (ports : Vector Port 3) (pending : List Instr) :
    { State.reset with ports := ports, pending := pending : State }.GoodStore := by
  have off (i : Svc) : State.reset.recorder[i].span = none := by simp [State.reset, RecorderSvc.powerOn]
  refine ⟨⟨rfl, nofun⟩, ⟨nofun, nofun, .nil, Nat.zero_le _⟩, (State.goodSpans_iff _).mpr ⟨fun i _ => off i, fun i p n e => ?_, ?_⟩,
    (State.goodTakes_iff _).mpr ⟨Nat.zero_le _, List.nodup_nil, fun t ht => (List.not_mem_nil ht).elim, ?_⟩⟩
  · cases (off i).symm.trans e
  · rintro n i b ⟨_, h, _⟩
    cases h
  · rintro n ⟨_, h, _⟩
    cases h

theorem exec_keeps_store {c : Instr} {s t : State} (h : exec c s = .next t) (good : s.GoodStore) : t.GoodStore := by
  rcases exec_cases h with ⟨_, frame⟩ | ⟨straps, rfl⟩ | ⟨rq, straps, rfl⟩
  · by_cases store : c.part = .store
    · exact exec_store_good store h good
    · exact good.of_eq (frame.store store) (frame.recorder store) (frame.archive store)
  · exact State.goodStore_reset ..
  · refine State.GoodStore.of_eq ?_ (State.respond_store ..) (State.respond_recorder ..) (State.respond_archive ..)
    exact State.warmed_keeps_store (fun hu store recorder _ archive => hu.of_eq store recorder archive)
      (fun hu => hu.warmRecorder) good rq straps

/-- Settles O44: the table with its spans and takes, the hold counts and the clip index, each under the commands that reach it. -/
theorem everyStepKeepsStoreHoldsAndClips : Obligations.EveryStepKeepsStoreHoldsAndClips := by
  unfold Obligations.EveryStepKeepsStoreHoldsAndClips
  refine ⟨fun _ _ good h => ?_, fun _ _ good h => ?_, fun _ _ good h => ?_⟩
  · exact step_keeps (P := State.GoodStore) (fun _ _ h => h) exec_keeps_store h good
  · exact step_keeps (P := State.GoodHoldCounts) (fun _ _ h => h) exec_keeps_counts h good
  · exact step_keeps (P := fun s => s.clips.Good) (fun _ _ h => h) exec_keeps_clips h good

end Sys2Proof.Machine
end

section
/-!
The roles that the straps give (R175), and the state after power-on reset (R1, R179, R189).
-/

namespace Sys2Proof.Machine

/-! ### Roles (R175) -/

theorem roleOf_eq_ite (x : PortStraps) :
    (if x.high then (if x.low then Role.observer else .archive) else (if x.low then .console else .playout)) = roleOf x := by
  obtain ⟨high, low⟩ := x
  cases high <;> cases low <;> rfl

/-- R175: the roles held, port by port, under the strapped ones. -/
theorem getElem_rolesHeld (r : Vector Role 3) (p : PortNo) :
    (#v[r[0], if r[1] = r[0] then .observer else r[1], if r[2] = r[0] ∨ r[2] = r[1] then .observer else r[2]] :
      Vector Role 3)[p] = roleHeld r p := by
  have list : r.toList = [r[0], r[1], r[2]] := List.ext_getElem (by simp) fun i h _ => by
    simp only [Vector.length_toList] at h
    match i, h with
    | 0, _ | 1, _ | 2, _ => simp
  unfold roleHeld
  rw [list]
  match p with
  | 0 => simp
  | 1 => simp
  | 2 => simp

/-! ### Power-on reset -/

theorem exec_powerOnReset (s : State) (t : Straps) :
    exec (.powerOnReset t) s =
      .next { State.reset with
        ports := Vector.ofFn fun p : PortNo => Port.afterPower t p s.ports[p].passes
        pending := s.pending } := rfl

namespace State

theorem reset_map (i : Svc) : State.reset.map[i] = ServiceRecord.powerOn i := by simp [State.reset]

theorem reset_sched (i : Svc) : State.reset.sched[i] = ServiceSched.powerOn := by simp [State.reset]

theorem reset_meter (i : Svc) : State.reset.meter[i] = MeterSvc.powerOn i := by simp [State.reset]

theorem reset_checker (i : Svc) : State.reset.checker[i] = CheckerSvc.powerOn i := by simp [State.reset]

theorem reset_recorder (i : Svc) : State.reset.recorder[i] = RecorderSvc.powerOn i := by simp [State.reset]

theorem reset_goodRecords : State.reset.GoodRecords := fun i => by
  rw [reset_map, reset_meter, reset_checker, reset_recorder]
  have good := ServiceRecord.good_powerOn i
  exact ⟨good, good, good, good⟩

theorem reset_goodProfiles (k : Fin 8) : State.reset.compliance.profiles[k].Good := by
  simpa [State.reset, Compliance.powerOn] using Profile.good_default

theorem reset_goodSched (i : Svc) :
    State.reset.sched[i].GoodStaging ∧ State.reset.sched[i].GoodState ∧ State.reset.sched[i].GoodClosing := by
  rw [reset_sched]
  simp [ServiceSched.powerOn, ServiceSched.GoodStaging, ServiceSched.GoodState, ServiceSched.GoodClosing]

theorem reset_goodChecker (i : Svc) : State.reset.checker[i].Good := by
  rw [reset_checker]
  exact CheckerSvc.good_of_cleared rfl rfl rfl rfl

theorem reset_goodStore : State.reset.GoodStore := State.goodStore_reset State.reset.ports State.reset.pending

theorem reset_goodRoles : State.reset.GoodRoles :=
  State.goodRoles_of_strapping (r := #v[.playout, .console, .archive]) fun
    | 0 | 1 | 2 => ⟨rfl, by decide⟩

theorem reset_goodPort (p : PortNo) : State.reset.ports[p].Good := by
  match p with
  | 0 | 1 | 2 => simp [State.reset, Port.powerOn, Port.Good]

theorem reset_goodNotices (p : PortNo) : State.reset.router.ports[p].Good := by
  simp [State.reset, PortNotices.powerOn, PortNotices.Good]

theorem reset_goodBank : State.reset.bank.Good := Bank.good_zeroed State.reset.bank

end State

/-- Settles O59: the state after power-on reset is the one of the tables, and every condition holds of it. -/
theorem powerOnResetGivesAGoodState : Obligations.PowerOnResetGivesAGoodState := by
  refine ⟨fun s t => ?_, ?_⟩
  · simp only [roleOf_eq_ite]
    rw [exec_powerOnReset]
    refine congrArg (fun v : Vector Port 3 => Host.Outcome.next { State.reset with ports := v, pending := s.pending }) ?_
    refine congrArg Vector.ofFn (funext fun p => ?_)
    rw [Port.afterPower, ← getElem_rolesHeld (rolesOf t) p]
    rfl
  · refine ⟨⟨rfl, rfl, rfl, fun l => by simp [State.reset, AudioLane.powerOn]⟩, fun i => ?_, fun g => by simp [State.reset],
      fun i => ?_, fun i => ?_, rfl, rfl, rfl, fun i => ?_, fun h => by simp [State.reset], fun i => by simp [State.reset], rfl, rfl, rfl,
      fun r => ?_, fun p => ?_, fun i k => ?_, fun k => ?_, rfl, ⟨nofun, by decide⟩, State.reset_goodRecords,
      State.reset_goodProfiles, State.reset_goodSched, fun i => ⟨State.reset_meter i ▸ MeterSvc.good_powerOn i, State.reset_goodChecker i⟩,
      Compliance.good_powerOn, Store.goodSettings_powerOn, State.reset_goodStore, ?_, ClipIndex.good_empty, State.reset_goodRoles,
      fun p => ⟨State.reset_goodPort p, State.reset_goodNotices p⟩, State.reset_goodBank⟩
    · rw [State.reset_map, State.reset_sched]
      exact ⟨rfl, rfl, rfl, rfl, rfl, rfl, rfl, rfl⟩
    · rw [State.reset_meter]
      exact ⟨rfl, rfl, rfl, rfl, rfl, rfl, rfl, rfl, rfl, rfl, rfl⟩
    · rw [State.reset_checker]
      exact ⟨rfl, rfl, rfl, rfl, rfl, fun r => by simp [CheckerSvc.powerOn], rfl, rfl, rfl, rfl⟩
    · rw [State.reset_recorder]
      exact ⟨rfl, rfl, rfl, rfl, rfl, rfl, rfl⟩
    · simp [State.reset, Route.powerOn]
    · simp [State.reset, PortNotices.powerOn]
    · simp [State.reset, Bank.powerOn, CounterCell.zero]
    · simp [State.reset, Bank.powerOn, CounterCell.zero]
    · exact fun e he => (List.not_mem_nil he).elim

end Sys2Proof.Machine
end

section
/-!
The station time unit and the lanes (chapter 1): what each of their events does, case by case.
-/

namespace Sys2Proof.Machine

/-! ### The station time unit (R1, R3 to R5) -/

/-- R1, R5: a period edge with the state written out. -/
theorem State.periodEdge_eq (s : State) (kind : EdgeKind) (instant : Nat) (ref : RefState) :
    s.periodEdge kind instant ref =
      { s with
        edges := s.edges + 1
        station := s.station.edge kind instant ref
        inFlight := s.inFlight ++ edgeMessages s.station.nextTime (s.station.endsHeld kind) } := rfl

theorem Station.endsHeld_eq_decide (x : Station) (kind : EdgeKind) :
    x.endsHeld kind = decide (x.kind = .reference ∧ kind = .reference) := by
  unfold Station.endsHeld
  cases x.kind <;> cases kind <;> rfl

/-- R1, R5: the unit after a period edge; the indication stays where the edge ends no MI. -/
theorem Station.edge_eq (x : Station) (kind : EdgeKind) (instant : Nat) (ref : RefState) :
    x.edge kind instant ref =
      { time := x.time.map fun m => (m + 1) % 2 ^ 40, ref := ref, instant := instant, kind := kind
        held := match x.time with
          | none => x.held
          | some _ => x.endsHeld kind } := by
  obtain ⟨time, _, _, _, _⟩ := x
  cases time <;> rfl

/-- Settles O4: each event either issues a period edge, whose effect is the same but for its kind, or does not arise. -/
theorem periodEdgesInEachReferenceState : Obligations.PeriodEdgesInEachReferenceState := by
  intro s elapsed x time held messages edge
  have issued (kind : EdgeKind) (micros : Nat) (ref : RefState) :
      s.periodEdge kind (s.station.instant + micros) ref = edge kind micros ref := by
    rw [State.periodEdge_eq, Station.edge_eq, Station.endsHeld_eq_decide]
    rfl
  refine ⟨fun locked => ⟨?_, ?_, ?_⟩, fun free => ⟨?_, ?_, ?_⟩⟩
  · rw [← issued]
    simp [exec, execReferenceEdge, show s.station.ref = _ from locked]
  · rw [← issued]
    simp [exec, execReferenceWatchExpiry, show s.station.ref = _ from locked]
    rfl
  · simp [exec, execOscillatorEdge, show s.station.ref = _ from locked]
  · rw [← issued]
    simp [exec, execReferenceEdge, show s.station.ref = _ from free]
    rfl
  · simp [exec, execReferenceWatchExpiry, show s.station.ref = _ from free]
  · rw [← issued]
    simp [exec, execOscillatorEdge, show s.station.ref = _ from free]
    rfl

/-! ### The lanes (R7 to R11, R15) -/

theorem State.audioBound_eq (s : State) (l : Lane) :
    s.audioBound l = (List.finRange 16).filter fun i : Svc => s.acting i && decide (s.map[i].audioLane = l) := rfl

theorem State.proxyBound_eq (s : State) (l : Lane) :
    s.proxyBound l = (List.finRange 16).filter fun i : Svc => s.acting i && decide (s.map[i].proxyLane = some l) :=
  List.filter_congr fun i _ => congrArg (s.acting i && ·) (beq_eq_decide ..)

theorem State.laneMi_eq (s : State) (l : Lane) :
    s.laneMi l = match s.inFlight.findSome? (State.edgeTo l) with
      | none => s.station.time
      | some e => e.tick.map miPrev := by
  unfold State.laneMi
  cases s.inFlight.findSome? (State.edgeTo l) <;> rfl

theorem exec_laneSampleFrame_notHeld {s : State} {l : Lane} (h : s.lanes[l].lock = .notHeld) (f : SampleFrame) :
    exec (.laneSampleFrame l f) s = .next s := by
  simp only [exec, execLaneSampleFrame, h]

theorem exec_laneSampleFrame_held {s : State} {l : Lane} (h : s.lanes[l].lock = .held) (f : SampleFrame) :
    exec (.laneSampleFrame l f) s =
      let counted := s.setLane l { s.lanes[l] with frames := min 65535 (s.lanes[l].frames + 1) }
      .next (match s.laneMi l with
        | none => counted
        | some m => counted.send ((s.audioBound l).flatMap fun i => [.meterSampleFrame i m f, .recorderSampleFrame i m f])) := by
  simp only [exec, execLaneSampleFrame, h]
  rfl

/-- R11: the valid mark after the lane's check. -/
theorem checkedFrame_eq (f : ProxyFrame) :
    checkedFrame f = { f with valid := f.valid && decide (f.bytes.length = 12288) && decide (f.position ≤ 24) } := by
  have position : (f.position < proxyPositions) = (f.position ≤ 24) := propext Nat.lt_succ_iff
  simp only [checkedFrame, position]
  rfl

/-- Settles O6: each lane input counts at its lane and goes, tagged, to the services bound to it. -/
theorem laneInputGoesToBoundServices : Obligations.LaneInputGoesToBoundServices := by
  refine ⟨fun s l f => ?_, fun s l p f => ⟨fun unset => ?_, fun m set => ⟨?_, ?_⟩⟩⟩
  · intro x counted edge here
    have mi : s.laneMi l = here := s.laneMi_eq l
    refine ⟨rfl, rfl, fun notHeld => ?_, fun held unset => ?_, fun m held set => ?_⟩
    · exact exec_laneSampleFrame_notHeld notHeld f
    · rw [exec_laneSampleFrame_held held]
      simp only [mi, unset]
      rfl
    · rw [exec_laneSampleFrame_held held]
      simp only [mi, set]
      rfl
  · simp [exec, execLaneCaptionPacket, execLaneProxyFrame, State.now, unset]
  · simp only [exec, execLaneCaptionPacket, State.now, set]
    rfl
  · simp only [exec, execLaneProxyFrame, State.now, set, checkedFrame_eq, State.proxyBound_eq]

/-! ### The judgment of an interval (R7 to R9) -/

/-- The judgment that a lane's interval gets, and the view that it gives (R8, R9). -/
theorem AudioLane.judgment_eq (x : AudioLane) :
    x.judgment = if decide (x.broken = false ∧ 4780 ≤ x.frames ∧ x.frames ≤ 4820) then .present x.frames else .absent := by
  unfold AudioLane.judgment
  simp only [decide_eq_true_eq]

theorem exec_lanePeriodEdge_unset {e : PeriodEdge} (h : e.tick = none) (l : Lane) (s : State) :
    exec (.lanePeriodEdge l e) s = .next ((s.arrive (.lanePeriodEdge l e)).setLane l s.lanes[l].nextInterval) := by
  simp only [exec, execLanePeriodEdge, h]

/-- R9: the services whose view takes the judgment that tick `t` brings to a lane. -/
def State.notedAt (s : State) (l : Lane) (e : PeriodEdge) (t : Mi) : List Svc :=
  (s.audioBound l).filter fun i => s.openDuring i (s.endedInterval l e (miPrev t))

theorem exec_lanePeriodEdge_tick {e : PeriodEdge} {t : Mi} (h : e.tick = some t) (l : Lane) (s : State) :
    exec (.lanePeriodEdge l e) s =
      .next ((s.notedAt l e t).foldl (fun x i => x.noteInput l t s.lanes[l].judgment i)
        (((s.arrive (.lanePeriodEdge l e)).setLane l s.lanes[l].nextInterval).send
          ((s.audioBound l).flatMap (judgmentMessages (miPrev t) s.lanes[l].judgment)))) := by
  simp only [exec, execLanePeriodEdge, h]
  rfl

theorem State.notedAt_nodup (s : State) (l : Lane) (e : PeriodEdge) (t : Mi) : (s.notedAt l e t).Nodup :=
  (allSvcs_nodup.filter _).filter _

theorem State.openDuring_eq (s : State) (i : Svc) (k : Int) :
    s.openDuring i k = s.openSpans[i].any fun p => decide (p.first ≤ k) && p.upTo.all fun b => decide (k < b) := by
  simp only [State.openDuring, OpenSpan.has_eq]

/-- Settles O7: the lane's interval is judged, and the judgment noted for the services that were on air. -/
theorem laneJudgesIntervalAtPeriodEdge : Obligations.LaneJudgesIntervalAtPeriodEdge := by
  intro s l e x s₁ present j view bound edges
  refine ⟨fun unset => exec_lanePeriodEdge_unset unset l s, fun t m tick hm => ?_⟩
  intro ended noted
  have judged : s.lanes[l].judgment = j := AudioLane.judgment_eq _
  have viewed : viewOf j = view := by
    simp only [j, view]
    split <;> rfl
  have interval : s.endedInterval l e (miPrev t) = ended := by
    rw [show miPrev t = m from hm.symm]
    rfl
  have on : s.notedAt l e t = noted := by
    simp only [State.notedAt, interval, State.openDuring_eq]
    rfl
  have absent : (j = .absent) ↔ present = false := by
    simp only [j]
    cases present <;> simp
  obtain ⟨frame, views, inFlight⟩ := State.noteInput_fold l t j noted (on ▸ s.notedAt_nodup l e t)
    (s₁.send (bound.flatMap fun i => [.meterJudgment i m j, .recorderJudgment i m j]))
  refine ⟨_, ?_, frame, fun i => ?_, ?_⟩
  · rw [exec_lanePeriodEdge_tick tick, judged, on, hm]
    rfl
  · rw [views, viewed]
    rfl
  · rw [inFlight, viewed]
    simp only [absent, eq_comm (a := view)]
    cases present <;> simp <;> rfl

end Sys2Proof.Machine
end

section
/-!
Arguments (R177, R14, R96, R97): what each reading of an argument gives, and the requests that store a service record or a profile.
-/

namespace Sys2Proof.Machine

/-! ### Clamped numbers -/

theorem clampNat_val {lo hi : Nat} (h : lo ≤ hi) (n : Nat) : (clampNat lo hi n).val = max lo (min hi n) := by
  unfold clampNat
  split
  · dsimp only; omega
  · split <;> dsimp only <;> omega

theorem clampNat_zero_val (hi n : Nat) : (clampNat 0 hi n).val = min hi n := by
  rw [clampNat_val (Nat.zero_le hi), Nat.zero_max]

theorem clampInt_val {lo hi : Int} (h : lo ≤ hi) (n : Int) : (clampInt lo hi n).val = max lo (min hi n) := by
  unfold clampInt
  split
  · dsimp only; omega
  · split <;> dsimp only <;> omega

theorem clampFin_val (k n : Nat) : (clampFin k n).val.val = min k n := by
  unfold clampFin
  split
  · next h => exact (Nat.min_eq_right (Nat.lt_succ_iff.mp h)).symm
  · next h => exact (Nat.min_eq_left (by omega)).symm

theorem clampFin_changed (k n : Nat) : (clampFin k n).changed = true ↔ k < n := by
  unfold clampFin
  split
  · simp; omega
  · simp; omega

theorem clampMask_val (k n j : Nat) : (clampMask k n).val.getLsbD j = (decide (j < k) && n.testBit j) :=
  BitVec.getLsbD_ofNat k n j

theorem clampMask_changed (k n : Nat) : (clampMask k n).changed = true ↔ 2 ^ k ≤ n := decide_eq_true_iff

/-- A number is marked replaced exactly where the value stored is another. -/
theorem clampNat_changed_eq {lo hi : Nat} (h : lo ≤ hi) (n : Nat) :
    (clampNat lo hi n).changed = true ↔ (clampNat lo hi n).val ≠ n := by
  rw [clampNat_changed, clampNat_val h]
  omega

theorem clampInt_changed_eq {lo hi : Int} (h : lo ≤ hi) (n : Int) :
    (clampInt lo hi n).changed = true ↔ (clampInt lo hi n).val ≠ n := by
  rw [clampInt_changed, clampInt_val h]
  omega

theorem clampOptNat_val {lo hi : Nat} (h : lo ≤ hi) (o : Option Nat) :
    (clampOptNat lo hi o).val = o.map fun n => max lo (min hi n) := by
  cases o with
  | none => rfl
  | some n => exact congrArg some (clampNat_val h n)

theorem clampOptInt_val {lo hi : Int} (h : lo ≤ hi) (o : Option Int) :
    (clampOptInt lo hi o).val = o.map fun n => max lo (min hi n) := by
  cases o with
  | none => rfl
  | some n => exact congrArg some (clampInt_val h n)

theorem clampOptNat_changed_eq {lo hi : Nat} (h : lo ≤ hi) (o : Option Nat) :
    (clampOptNat lo hi o).changed = true ↔ (clampOptNat lo hi o).val ≠ o := by
  cases o with
  | none => simp [clampOptNat]
  | some n => simpa [clampOptNat] using clampNat_changed_eq h n

theorem clampOptInt_changed_eq {lo hi : Int} (h : lo ≤ hi) (o : Option Int) :
    (clampOptInt lo hi o).changed = true ↔ (clampOptInt lo hi o).val ≠ o := by
  cases o with
  | none => simp [clampOptInt]
  | some n => simpa [clampOptInt] using clampInt_changed_eq h n

/-! ### Markers and bytes -/

theorem yesNo_byte (b : Bool) : yesNo (if b then 1 else 0) = some b := by cases b <;> rfl

theorem yesNo_eq_some {n : Nat} {b : Bool} (h : yesNo n = some b) : n < 2 := by
  unfold yesNo at h
  split at h
  · exact Nat.zero_lt_two
  · exact Nat.one_lt_two
  · cases h

theorem argGet_ne_bad {α : Type} {d : Option α} {x : Arg α} {v : α} (h : argGet d x = some v) :
    ¬ (x = .absent ∨ x = .badMarker) := by
  rintro (rfl | rfl) <;> cases h

theorem argGet_ne_dflt {α : Type} {x : Arg α} {v : α} (h : argGet none x = some v) : x ≠ .dflt := by
  rintro rfl
  cases h

theorem argGetOpt_ne_badMarker {α : Type} {d : Option (Option α)} {x : Arg α} {v : Option α} (h : argGetOpt d x = some v) :
    x ≠ .badMarker := by
  rintro rfl
  cases h

/-! ### CONFIGURE SERVICE (R13, R14) -/

theorem channelList_eq_some {l : List (Nat × Nat)} (h : 1 ≤ l.length ∧ l.length ≤ 6) :
    channelList l = some ⟨(l.map channelEntry).map (·.val), (l.map channelEntry).any (·.changed)⟩ :=
  if_neg (by omega)

theorem channelList_length {l : List (Nat × Nat)} {c : Clamped (List ChannelEntry)} (h : channelList l = some c) :
    1 ≤ l.length ∧ l.length ≤ 6 := by
  by_contra bad
  have : channelList l = none := if_pos (by omega)
  cases this.symm.trans h

theorem channelEntry_changed (e : Nat × Nat) :
    (channelEntry e).changed = true ↔ 7 < e.1 ∨ (e.2 ≠ 100 ∧ e.2 ≠ 141) := by
  simp only [channelEntry, Bool.or_eq_true, clampFin_changed]
  simp

/-- R14: every field of the arguments of CONFIGURE SERVICE has a value that it accepts. -/
structure ServiceFieldsRead (a : ServiceArgs) : Prop where
  audioLane : ∃ n, argGet none a.audioLane = some n
  channels : ∃ l, argGet none a.channels = some l ∧ 1 ≤ l.length ∧ l.length ≤ 6
  captionLane : ∃ n, argGet none a.captionLane = some n
  captionStream : ∃ n, argGet none a.captionStream = some n
  rowMask : ∃ n, argGet (some (2 ^ 16 - 1)) a.rowMask = some n
  speechFloor : ∃ n, argGet (some (-500)) a.speechFloor = some n
  streamTimeout : ∃ n, argGet (some 50) a.streamTimeout = some n
  proxyLane : ∃ n, argGetOpt none a.proxyLane = some n
  normalKeep : ∃ n, argGet (some (2 ^ 25 - 1)) a.normalKeep = some n
  reducedKeep : ∃ n, argGet (some (2 ^ 0 + 2 ^ 5 + 2 ^ 10 + 2 ^ 15 + 2 ^ 20)) a.reducedKeep = some n
  recording : ∃ n, argGet none a.recording = some n ∧ n < 2
  priority : ∃ n, argGet none a.priority = some n
  overwrite : ∃ n, argGet none a.overwrite = some n ∧ n < 2
  profile : ∃ n, argGet none a.profile = some n ∧ n < 8
  unschedPlanned : ∃ n, argGet (some 36000) a.unschedPlanned = some n
  holdGuard : ∃ n, argGet (some 100) a.holdGuard = some n

theorem readServiceArgs_read {a : ServiceArgs} {r : Clamped ServiceRecord} (h : readServiceArgs a = some r) : ServiceFieldsRead a := by
  unfold readServiceArgs at h
  obtain ⟨_, audioLane, h⟩ := Option.bind_eq_some_iff.mp h
  obtain ⟨_, channels, h⟩ := Option.bind_eq_some_iff.mp h
  obtain ⟨_, list, h⟩ := Option.bind_eq_some_iff.mp h
  obtain ⟨_, captionLane, h⟩ := Option.bind_eq_some_iff.mp h
  obtain ⟨_, stream, h⟩ := Option.bind_eq_some_iff.mp h
  obtain ⟨_, mask, h⟩ := Option.bind_eq_some_iff.mp h
  obtain ⟨_, floor, h⟩ := Option.bind_eq_some_iff.mp h
  obtain ⟨_, timeout, h⟩ := Option.bind_eq_some_iff.mp h
  obtain ⟨_, proxy, h⟩ := Option.bind_eq_some_iff.mp h
  obtain ⟨_, normal, h⟩ := Option.bind_eq_some_iff.mp h
  obtain ⟨_, reduced, h⟩ := Option.bind_eq_some_iff.mp h
  obtain ⟨_, recording, h⟩ := Option.bind_eq_some_iff.mp h
  obtain ⟨_, recorded, h⟩ := Option.bind_eq_some_iff.mp h
  obtain ⟨_, priority, h⟩ := Option.bind_eq_some_iff.mp h
  obtain ⟨_, overwrite, h⟩ := Option.bind_eq_some_iff.mp h
  obtain ⟨_, permitted, h⟩ := Option.bind_eq_some_iff.mp h
  obtain ⟨_, profile, h⟩ := Option.bind_eq_some_iff.mp h
  obtain ⟨k, numbered, h⟩ := Option.bind_eq_some_iff.mp h
  obtain ⟨_, planned, h⟩ := Option.bind_eq_some_iff.mp h
  obtain ⟨_, guardMi, _⟩ := Option.bind_eq_some_iff.mp h
  exact ⟨⟨_, audioLane⟩, ⟨_, channels, channelList_length list⟩, ⟨_, captionLane⟩, ⟨_, stream⟩, ⟨_, mask⟩, ⟨_, floor⟩,
    ⟨_, timeout⟩, ⟨_, proxy⟩, ⟨_, normal⟩, ⟨_, reduced⟩, ⟨_, recording, yesNo_eq_some recorded⟩, ⟨_, priority⟩,
    ⟨_, overwrite, yesNo_eq_some permitted⟩, ⟨_, profile, asFin_eq_some.mp numbered ▸ k.isLt⟩, ⟨_, planned⟩, ⟨_, guardMi⟩⟩

theorem readServiceArgs_eq_none {a : ServiceArgs} (h : ¬ ServiceFieldsRead a) : readServiceArgs a = none :=
  Option.eq_none_iff_forall_ne_some.mpr fun _ e => h (readServiceArgs_read e)

theorem ServiceFieldsRead.not_dflt {a : ServiceArgs} (h : ServiceFieldsRead a) :
    ¬ (a.audioLane = .dflt ∨ a.channels = .dflt ∨ a.captionLane = .dflt ∨ a.captionStream = .dflt ∨ a.proxyLane = .dflt ∨
      a.recording = .dflt ∨ a.priority = .dflt ∨ a.overwrite = .dflt ∨ a.profile = .dflt) := by
  obtain ⟨⟨_, audio⟩, ⟨_, channels, _⟩, ⟨_, caption⟩, ⟨_, stream⟩, _, _, _, ⟨_, proxy⟩, _, _, ⟨_, recording, _⟩, ⟨_, priority⟩,
    ⟨_, overwrite, _⟩, ⟨_, profile, _⟩, _, _⟩ := h
  have proxied : a.proxyLane ≠ .dflt := fun e => by cases (e ▸ proxy :)
  simp only [not_or]
  exact ⟨argGet_ne_dflt audio, argGet_ne_dflt channels, argGet_ne_dflt caption, argGet_ne_dflt stream, proxied,
    argGet_ne_dflt recording, argGet_ne_dflt priority, argGet_ne_dflt overwrite, argGet_ne_dflt profile⟩

/-- The two markers that stand for no value of a field. -/
def BadMarked {α : Type} (x : Arg α) : Prop := x = .absent ∨ x = .badMarker

theorem ServiceFieldsRead.not_bad {a : ServiceArgs} (h : ServiceFieldsRead a) :
    ¬ (BadMarked a.audioLane ∨ BadMarked a.channels ∨ BadMarked a.captionLane ∨ BadMarked a.captionStream ∨ BadMarked a.rowMask ∨ BadMarked a.speechFloor ∨
      BadMarked a.streamTimeout ∨ a.proxyLane = .badMarker ∨ BadMarked a.normalKeep ∨ BadMarked a.reducedKeep ∨ BadMarked a.recording ∨
      BadMarked a.priority ∨ BadMarked a.overwrite ∨ BadMarked a.profile ∨ BadMarked a.unschedPlanned ∨ BadMarked a.holdGuard) := by
  obtain ⟨⟨_, audio⟩, ⟨_, channels, _⟩, ⟨_, caption⟩, ⟨_, stream⟩, ⟨_, mask⟩, ⟨_, floor⟩, ⟨_, timeout⟩, ⟨_, proxy⟩, ⟨_, normal⟩,
    ⟨_, reduced⟩, ⟨_, recording, _⟩, ⟨_, priority⟩, ⟨_, overwrite, _⟩, ⟨_, profile, _⟩, ⟨_, planned⟩, ⟨_, guardMi⟩⟩ := h
  simp only [not_or]
  exact ⟨argGet_ne_bad audio, argGet_ne_bad channels, argGet_ne_bad caption, argGet_ne_bad stream, argGet_ne_bad mask,
    argGet_ne_bad floor, argGet_ne_bad timeout, argGetOpt_ne_badMarker proxy, argGet_ne_bad normal, argGet_ne_bad reduced,
    argGet_ne_bad recording, argGet_ne_bad priority, argGet_ne_bad overwrite, argGet_ne_bad profile, argGet_ne_bad planned,
    argGet_ne_bad guardMi⟩

theorem bind_eq_map_bind {α β γ : Type} {x : Option α} {f : α → Option β} {g : α → Option γ} {k : β → γ}
    (h : ∀ v, g v = (f v).map k) : x.bind g = (x.bind f).map k := by
  rw [Option.map_bind]
  exact congrArg x.bind (funext h)

/-- NONE for the proxy lane leaves the service without one, and everything else as with any lane. -/
theorem readServiceArgs_proxy_absent (a : ServiceArgs) :
    readServiceArgs { a with proxyLane := .absent } =
      (readServiceArgs { a with proxyLane := .value 0 }).map fun r => ⟨{ r.val with proxyLane := none }, r.changed⟩ := by
  unfold readServiceArgs
  iterate 8 refine bind_eq_map_bind fun _ => ?_
  refine (?_ : Option.bind (some _) _ = Option.map _ (Option.bind (some _) _))
  simp only [Option.bind_some]
  iterate 11 refine bind_eq_map_bind fun _ => ?_
  rfl

/-- R13: a record with all values in their form is stored where the service is not running. -/
theorem exec_configureService_of_read (rq : Req) {args : ServiceArgs} {r : Clamped ServiceRecord}
    (h : readServiceArgs args = some r) (i : Svc) (s : State) :
    exec (.configureService rq i.val args) s =
      let u := s.arrive (.configureService rq i.val args)
      .next (if s.sched[i].state.configurable then
          ({ u with map := s.map.set i r.val, sched := s.sched.set i { s.sched[i] with state := .ready } } : State).respond rq
            (if r.changed then .clamped else .ok) .nothing
        else u.respond rq .state .nothing) := by
  simp only [exec, execConfigureService, asFin_val, h]
  rfl

/-- Settles O8: CONFIGURE SERVICE reads its arguments field by field; the record read is stored in a service that is not running. -/
theorem configureServiceStoresAClampedRecord : Obligations.ConfigureServiceStoresAClampedRecord := by
  refine ⟨fun s rq n args => ⟨?_, fun bad => ?_⟩, ?_, fun a => ?_⟩
  · rintro i r rfl read
    refine ⟨fun idle => ?_, fun acting => ?_⟩
    · rw [exec_configureService_of_read rq read]
      rcases idle with h | h <;> simp only [h, SvcState.configurable] <;> rfl
    · rw [exec_configureService_of_read rq read]
      rcases acting with h | h <;> simp only [h, SvcState.configurable] <;> rfl
  · refine congrArg Host.Outcome.next ?_
    rcases bad with n16 | none
    · simp only [asFin_eq_none.mpr n16]
      rfl
    · simp only [none]
      cases asFin 16 n <;> rfl
  · intro audio chans cap stream rows timeout proxy normal reduced prio profile planned guardMi floor record permit byte a
    refine ⟨fun profiled some six => ?_, fun bad => readServiceArgs_eq_none fun read => ?_⟩
    · obtain ⟨k, rfl⟩ : ∃ k : Fin 8, profile = k.val := ⟨⟨profile, profiled⟩, rfl⟩
      refine ⟨_, by
        simp only [a, byte, readServiceArgs, argGet, argGetOpt, channelList_eq_some ⟨some, six⟩, yesNo_byte, asFin_val,
          Option.bind_eq_bind, Option.bind_some]
        exact rfl, ?_⟩
      dsimp only
      refine ⟨clampFin_val .., ?_, ?_, clampFin_val .., clampFin_val .., clampMask_val _ _, clampInt_val (by decide) _,
        clampNat_val (by decide) _, congrArg Option.some (clampFin_val ..), clampMask_val _ _, clampMask_val _ _, rfl, clampFin_val .., rfl, rfl,
        clampNat_val (by decide) _, clampNat_zero_val .., ?_⟩
      · simp [channelEntry, clampFin_val]
      · simp [channelEntry]
      · simp only [Bool.or_eq_true, Option.map_some, clampFin_changed, clampMask_changed, clampInt_changed, clampNat_changed, List.any_eq_true,
          List.mem_map, exists_exists_and_eq_and, channelEntry_changed, Nat.not_lt_zero, false_or, or_assoc]
    · obtain ⟨_, list, one, six⟩ := read.channels
      obtain ⟨_, number, eight⟩ := read.profile
      cases list
      cases number
      omega
  · refine ⟨rfl, rfl, rfl, rfl, rfl, rfl, rfl, readServiceArgs_proxy_absent a,
      fun h => readServiceArgs_eq_none fun read => read.not_dflt h, fun h => readServiceArgs_eq_none fun read => read.not_bad h,
      fun n two h => readServiceArgs_eq_none fun read => ?_⟩
    obtain ⟨_, recording, r2⟩ := read.recording
    obtain ⟨_, overwrite, o2⟩ := read.overwrite
    rcases h with h | h
    · cases h ▸ recording
      omega
    · cases h ▸ overwrite
      omega

/-! ### WRITE PROFILE (R95 to R97) -/

/-- R97: every field of the arguments of WRITE PROFILE has a value that it accepts. -/
structure ProfileFieldsRead (a : ProfileArgs) : Prop where
  target : ∃ n, argGet (some Profile.default.target) a.target = some n
  tolerance : ∃ n, argGet (some Profile.default.tolerance) a.tolerance = some n
  shortTerm : ∃ n, argGetOpt (some Profile.default.shortTerm) a.shortTerm = some n
  peak : ∃ n, argGetOpt (some Profile.default.peak) a.peak = some n
  relative : ∃ n, argGetOpt (some Profile.default.relative) a.relative = some n
  captions : ∃ n, argGet (some 0) a.captions = some n ∧ n < 2
  minCoverage : ∃ n, argGet (some Profile.default.minCoverage) a.minCoverage = some n
  maxGap : ∃ n, argGetOpt (some Profile.default.maxGap) a.maxGap = some n
  overrun : ∃ n, argGet (some Profile.default.overrun) a.overrun = some n

theorem readProfileArgs_read {a : ProfileArgs} {p : Clamped Profile} (h : readProfileArgs a = some p) : ProfileFieldsRead a := by
  simp only [readProfileArgs, Option.bind_eq_bind, Option.bind_eq_some_iff, Option.some.injEq] at h
  obtain ⟨_, target, _, tolerance, _, short, _, peak, _, relative, _, captions, _, read, _, coverage, _, gap, _, overrun, _⟩ := h
  exact ⟨⟨_, target⟩, ⟨_, tolerance⟩, ⟨_, short⟩, ⟨_, peak⟩, ⟨_, relative⟩, ⟨_, captions, yesNo_eq_some read⟩, ⟨_, coverage⟩,
    ⟨_, gap⟩, ⟨_, overrun⟩⟩

theorem readProfileArgs_eq_none {a : ProfileArgs} (h : ¬ ProfileFieldsRead a) : readProfileArgs a = none :=
  Option.eq_none_iff_forall_ne_some.mpr fun _ e => h (readProfileArgs_read e)

theorem ProfileFieldsRead.not_bad {a : ProfileArgs} (h : ProfileFieldsRead a) :
    ¬ (BadMarked a.target ∨ BadMarked a.tolerance ∨ a.shortTerm = .badMarker ∨ a.peak = .badMarker ∨ a.relative = .badMarker ∨
      BadMarked a.captions ∨ BadMarked a.minCoverage ∨ a.maxGap = .badMarker ∨ BadMarked a.overrun ∨
      ∃ n, 2 ≤ n ∧ a.captions = .value n) := by
  obtain ⟨⟨_, target⟩, ⟨_, tolerance⟩, ⟨_, short⟩, ⟨_, peak⟩, ⟨_, relative⟩, ⟨_, captions, byte⟩, ⟨_, coverage⟩, ⟨_, gap⟩,
    ⟨_, overrun⟩⟩ := h
  have spelled : ¬ ∃ n, 2 ≤ n ∧ a.captions = .value n := by
    rintro ⟨n, two, value⟩
    cases value ▸ captions
    omega
  simp only [not_or]
  exact ⟨argGet_ne_bad target, argGet_ne_bad tolerance, argGetOpt_ne_badMarker short, argGetOpt_ne_badMarker peak,
    argGetOpt_ne_badMarker relative, argGet_ne_bad captions, argGet_ne_bad coverage, argGetOpt_ne_badMarker gap,
    argGet_ne_bad overrun, spelled⟩

theorem exec_writeProfile_of_read (rq : Req) {a : ProfileArgs} {p : Clamped Profile} (h : readProfileArgs a = some p) (k : Fin 8)
    (s : State) :
    exec (.writeProfile rq k.val a) s =
      .next (({ s.arrive (.writeProfile rq k.val a) with
        compliance := { s.compliance with profiles := s.compliance.profiles.set k p.val } } : State).respond rq
          (if p.changed then .clamped else .ok) (.profile k p.val)) := by
  simp only [exec, execWriteProfile, asFin_val, h]
  rfl

theorem exec_writeProfile_bad (rq : Req) {n : Nat} {a : ProfileArgs} (h : 8 ≤ n ∨ readProfileArgs a = none) (s : State) :
    exec (.writeProfile rq n a) s = .next ((s.arrive (.writeProfile rq n a)).respond rq .badArgument .nothing) := by
  refine congrArg Host.Outcome.next ?_
  rcases h with n8 | none
  · simp only [asFin_eq_none.mpr n8]
    rfl
  · simp only [none]
    cases asFin 8 n <;> rfl

/-- A number, or NONE, as an argument carries it. -/
def argOf {α : Type} (o : Option α) : Arg α := match o with
  | none => .absent
  | some v => .value v

theorem argGetOpt_argOf {α : Type} (d : Option (Option α)) (o : Option α) : argGetOpt d (argOf o) = some o := by
  cases o <;> rfl

/-- Settles O35: WRITE PROFILE reads its nine fields one by one, and stores what it read. -/
theorem writeProfileStoresClampedFields : Obligations.WriteProfileStoresClampedFields := by
  refine ⟨fun s rq n a => ⟨?_, fun bad => exec_writeProfile_bad rq bad s⟩, fun a => ?_, ?_⟩
  · rintro k p rfl read
    exact exec_writeProfile_of_read rq read k s
  · exact ⟨rfl, rfl, rfl, rfl, rfl, rfl, rfl, rfl, rfl, fun h => readProfileArgs_eq_none fun read => read.not_bad h⟩
  · intro s rq n target tol short peak rel captions cover gap grace num a p same c u
    refine ⟨fun n8 => exec_writeProfile_bad rq (.inl n8) s, ?_⟩
    rintro k rfl done
    obtain ⟨q, read, stored, changed⟩ : ∃ q, readProfileArgs a = some q ∧ q.val = p ∧ (q.changed = true ↔ ¬ same) := by
      have opt {α : Type} (d : Option (Option α)) (o : Option α) : argGetOpt d (num o) = some o := argGetOpt_argOf d o
      refine ⟨_, by
        simp only [a, readProfileArgs, argGet, opt, yesNo_byte, Option.bind_eq_bind, Option.bind_some]
        exact rfl, ?_, ?_⟩
      · simp [p, clampInt_val, clampNat_val, clampOptInt_val, clampOptNat_val]
      · simp (disch := decide) only [same, p, Bool.or_eq_true, clampInt_changed_eq, clampNat_changed_eq, clampOptInt_changed_eq, clampOptNat_changed_eq,
          clampInt_val, clampNat_val, clampOptInt_val, clampOptNat_val, Nat.zero_max, not_and_or, or_assoc]
    refine ⟨fun h => ?_, fun h => ?_⟩
    · rw [exec_writeProfile_of_read rq read, stored, if_neg (fun e => changed.mp e h)]
    · rw [exec_writeProfile_of_read rq read, stored, if_pos (changed.mpr h)]

end Sys2Proof.Machine
end

section
/-!
The requests of the schedule unit (chapter 2): START and STOP SERVICE, STAGE and GROUP STAGE.
-/

namespace Sys2Proof.Machine

/-! ### START SERVICE and STOP SERVICE (R17, R18) -/

theorem exec_startService_val (rq : Req) (i : Svc) (s : State) :
    exec (.startService rq i.val) s =
      let u := s.arrive (.startService rq i.val)
      .next (if s.sched[i].state = .ready ∧ s.station.time.isSome then
          (({ u with
            sched := s.sched.set i { s.sched[i] with state := .starting, view := .recording, viewFrom := s.station.time, runInst := none }
            views := s.views.set i .present
            compliance := { s.compliance with refs := s.compliance.refs.set i none } } : State).send
              [.meterRunStarted i, .checkerRunStarted i, .recorderRunStarted i]).respond rq .ok .nothing
        else u.respond rq .state .nothing) := by
  simp only [exec, execStartService, asFin_val]
  rfl

theorem exec_startService_bad (rq : Req) {n : Nat} (h : 16 ≤ n) (s : State) :
    exec (.startService rq n) s = .next ((s.arrive (.startService rq n)).respond rq .badArgument .nothing) := by
  simp only [exec, execStartService, asFin_eq_none.mpr h]
  rfl

theorem exec_stopService_val (rq : Req) (i : Svc) (s : State) :
    exec (.stopService rq i.val) s =
      let u := s.arrive (.stopService rq i.val)
      .next (match s.sched[i].stop i with
        | none => u.respond rq .state .nothing
        | some r => ((u.setSched i r.1).send r.2).respond rq .ok .nothing) := by
  simp only [exec, execStopService, asFin_val]
  rfl

theorem exec_stopService_bad (rq : Req) {n : Nat} (h : 16 ≤ n) (s : State) :
    exec (.stopService rq n) s = .next ((s.arrive (.stopService rq n)).respond rq .badArgument .nothing) := by
  simp only [exec, execStopService, asFin_eq_none.mpr h]
  rfl

namespace ServiceSched

/-! #### What STOP SERVICE makes of a service, state by state (R18) -/

theorem stop_of_idle {x : ServiceSched} (h : x.state = .disabled ∨ x.state = .ready) (i : Svc) : x.stop i = none := by
  rcases h with h | h <;> rw [stop, h]

theorem stop_of_starting {x : ServiceSched} (h : x.state = .starting) (i : Svc) :
    x.stop i = some ({ x with state := .ready, staging := [] }, runEndedMessages i none) := by rw [stop, h]

theorem stop_of_running {x : ServiceSched} (h : x.state = .running) (i : Svc) :
    x.stop i = some (if x.stopPending then (x, []) else ({ x with stopPending := true, staging := [] }, [])) := by rw [stop, h]

end ServiceSched

/-- Settles O9: START SERVICE by whether the service is READY with station time set, STOP SERVICE by the state of the service. -/
theorem servicesStartAndStop : Obligations.ServicesStartAndStop := by
  refine ⟨fun s rq n => ⟨?_, ?_, fun n16 => exec_startService_bad rq n16 s⟩, fun s rq n => ⟨?_, fun n16 => exec_stopService_bad rq n16 s⟩⟩
  · rintro i m rfl ready set
    rw [exec_startService_val, set]
    exact congrArg Host.Outcome.next (if_pos ⟨ready, rfl⟩)
  · rintro i rfl other
    rw [exec_startService_val]
    refine congrArg Host.Outcome.next (if_neg ?_)
    rintro ⟨ready, set⟩
    rcases other with h | h
    · exact h ready
    · rw [h] at set
      cases set
  · rintro i rfl
    rw [exec_stopService_val]
    refine ⟨fun idle => ?_, fun starting => ?_, fun running going => ?_, fun running pending => ?_⟩
    · rw [ServiceSched.stop_of_idle idle]
    · rw [ServiceSched.stop_of_starting starting]
      rfl
    · rw [ServiceSched.stop_of_running running, going]
      dsimp only
      rw [if_neg Bool.false_ne_true, State.send_nil]
      rfl
    · rw [ServiceSched.stop_of_running running, pending]
      dsimp only
      rw [if_pos rfl, State.send_nil]
      exact congrArg (fun v : State => Host.Outcome.next (v.respond rq .ok .nothing)) (State.setSched_self (s.arrive _) i)

/-! ### STAGE (R22) -/

/-- The descriptor that STAGE and GROUP STAGE read, where class and profile are ones that a descriptor may carry. -/
theorem readDescriptor_eq_some {a : DescArgs} {cls : SegClass} {profile : Fin 8} (fits : a.cls < 4)
    (code : classOfCode a.cls = some cls) (number : a.profile = profile.val) :
    readDescriptor a =
      some ⟨⟨a.id, a.start, cls, profile, max 1 (min 864000 a.planned)⟩, decide (¬ (1 ≤ a.planned ∧ a.planned ≤ 864000))⟩ := by
  have planned : plannedDuration a.planned =
      ⟨max 1 (min 864000 a.planned), decide (¬ (1 ≤ a.planned ∧ a.planned ≤ 864000))⟩ := by
    have val := clampNat_val (lo := 1) (hi := 864000) (by decide) a.planned
    have changed := clampNat_changed 1 864000 a.planned
    unfold plannedDuration
    cases h : clampNat 1 864000 a.planned with | mk v c =>
    rw [h] at val changed
    rw [← val]
    congr 1
    rw [Bool.eq_iff_iff, changed, decide_eq_true_iff]
    omega
  rw [readDescriptor, stageClass, if_pos fits, code, number, planned, asFin_val]
  rfl

theorem readDescriptor_eq_none {a : DescArgs} (h : 4 ≤ a.cls ∨ 8 ≤ a.profile) : readDescriptor a = none := by
  rcases h with h | h
  · rw [readDescriptor, stageClass, if_neg (Nat.not_lt.mpr h)]
    rfl
  · rw [readDescriptor, asFin_eq_none.mpr h]
    cases stageClass a.cls <;> rfl

theorem exec_stage_bad (rq : Req) {n : Nat} {a : DescArgs} (h : 16 ≤ n ∨ 4 ≤ a.cls ∨ 8 ≤ a.profile) (s : State) :
    exec (.stage rq n a) s = .next ((s.arrive (.stage rq n a)).respond rq .badArgument .nothing) := by
  refine congrArg Host.Outcome.next ?_
  rcases h with h | h
  · simp only [asFin_eq_none.mpr h]
    rfl
  · simp only [readDescriptor_eq_none h]
    cases asFin 16 n <;> rfl

theorem exec_stage_val (rq : Req) (i : Svc) {a : DescArgs} {d : Clamped Descriptor} (h : readDescriptor a = some d) (s : State) :
    exec (.stage rq i.val a) s =
      let u := s.arrive (.stage rq i.val a)
      .next (match s.sched[i].stageCheck d.val.id d.val.start with
        | some st => u.respond rq st .nothing
        | none => (u.setSched i (s.sched[i].addDescriptor d.val)).respondOk rq d.changed
            (.late (lateIndication s.station.time d.val.start))) := by
  simp only [exec, execStage, asFin_val, h]
  rfl

theorem lateIndication_eq (time : Option Mi) (start : Mi) :
    lateIndication time start = match time with
      | none => false
      | some m => decide (start ≤ m) := by
  cases time <;> rfl

/-- A response with a replaced value is CLAMPED: the two ways of saying that none was replaced. -/
theorem State.respondOk_decide_not (s : State) (rq : Req) (p : Prop) [Decidable p] (a : Answer) :
    s.respondOk rq (decide (¬ p)) a = s.respond rq (if p then .ok else .clamped) a := by
  unfold State.respondOk
  by_cases h : p <;> simp [h]

/-- Settles O10: the checks of R22 in their order, and the descriptor behind the queue where all pass. -/
theorem stageChecksInOrder : Obligations.StageChecksInOrder := by
  intro s rq n a c u
  refine ⟨fun bad => exec_stage_bad rq bad s, ?_⟩
  rintro i cls profile rfl fits code number x d late
  refine (exec_stage_val rq i (readDescriptor_eq_some fits code number) s).trans (congrArg Host.Outcome.next ?_)
  dsimp only
  rw [ServiceSched.stageCheck_eq, State.respondOk_decide_not, lateIndication_eq]
  by_cases closed : s.sched[i].state = .disabled ∨ (s.sched[i].state = .running ∧ s.sched[i].stopPending = true)
  · rw [if_pos closed, if_pos closed]
  rw [if_neg closed, if_neg closed]
  by_cases full : 4 ≤ s.sched[i].staging.length
  · rw [if_pos full, if_pos full]
  rw [if_neg full, if_neg full]
  by_cases order : ∃ e, s.sched[i].staging.getLast? = some e ∧ a.start ≤ e.start
  · rw [if_pos order, if_pos order]
  rw [if_neg order, if_neg order]
  by_cases conflict : (∃ e ∈ s.sched[i].staging, e.id = a.id) ∨ s.sched[i].openId = some a.id
  · rw [if_pos conflict, if_pos conflict]
  · rw [if_neg conflict, if_neg conflict]
    rfl

/-! ### GROUP STAGE (R26) -/

theorem State.mem_groupMembers (s : State) (g : Fin 4) (i : Svc) :
    i ∈ s.groupMembers g ↔ s.groups[g].getLsbD i.val = true ∧ s.sched[i].state ≠ .disabled := by
  simp [State.groupMembers]

theorem State.groupReady_iff (s : State) (g : Fin 4) :
    s.groupReady g = true ↔
      ∃ i : Svc, (s.groups[g].getLsbD i.val = true ∧ s.sched[i].state ≠ .disabled) ∧
        (s.sched[i].state = .ready ∨ s.sched[i].state = .running) := by
  simp only [State.groupReady, List.any_eq_true, State.mem_groupMembers]
  simp

/-- In an ascending list the first place with a value is the one below which none has one. -/
theorem findSome?_eq_some_of_first {α β : Type} [LT α] {f : α → Option β} {l : List α} (rising : l.Pairwise (· < ·)) {a : α} {b : β}
    (mem : a ∈ l) (there : f a = some b) (first : ∀ k ∈ l, k < a → f k = none) : l.findSome? f = some b := by
  induction l with
  | nil => cases mem
  | cons x l ih =>
    obtain ⟨below, rising⟩ := List.pairwise_cons.mp rising
    rcases List.mem_cons.mp mem with rfl | mem
    · rw [List.findSome?_cons_of_isSome (by rw [there]; rfl), there]
    · rw [List.findSome?_cons_of_isNone (by rw [first x List.mem_cons_self (below a mem)]; rfl)]
      exact ih rising mem fun k hk => first k (List.mem_cons_of_mem x hk)

theorem State.groupMembers_rising (s : State) (g : Fin 4) : (s.groupMembers g).Pairwise (· < ·) :=
  (List.pairwise_lt_finRange 16).filter _

theorem State.groupFailure_eq_some {s : State} {g : Fin 4} {d : Descriptor} {i : Svc} {st : Status} (mem : i ∈ s.groupMembers g)
    (fails : s.sched[i].stageCheck d.id d.start = some st)
    (first : ∀ k : Svc, k < i → k ∈ s.groupMembers g → s.sched[k].stageCheck d.id d.start = none) :
    s.groupFailure d (s.groupMembers g) = some (i, st) :=
  findSome?_eq_some_of_first (s.groupMembers_rising g) mem (by rw [fails]; rfl) fun k hk below => by rw [first k below hk]; rfl

theorem State.groupFailure_eq_none {s : State} {d : Descriptor} {l : List Svc}
    (h : ∀ i ∈ l, s.sched[i].stageCheck d.id d.start = none) : s.groupFailure d l = none :=
  List.findSome?_eq_none_iff.mpr fun i hi => by rw [h i hi]; rfl

/-- Descriptors joining the queues change nothing but the schedule. -/
theorem State.foldl_addDescriptor_eq (d : Descriptor) (l : List Svc) (s : State) :
    ∃ sched, l.foldl (fun x i => x.setSched i (x.sched[i].addDescriptor d)) s = { s with sched := sched } := by
  induction l generalizing s with
  | nil => exact ⟨s.sched, rfl⟩
  | cons i l ih => exact ih (s.setSched i (s.sched[i].addDescriptor d))

theorem exec_groupStage_bad (rq : Req) {n : Nat} {a : DescArgs} (h : 4 ≤ n ∨ 4 ≤ a.cls ∨ 8 ≤ a.profile) (s : State) :
    exec (.groupStage rq n a) s = .next ((s.arrive (.groupStage rq n a)).respond rq .badArgument .nothing) := by
  refine congrArg Host.Outcome.next ?_
  rcases h with h | h
  · simp only [asFin_eq_none.mpr h]
    rfl
  · simp only [readDescriptor_eq_none h]
    cases asFin 4 n <;> rfl

theorem exec_groupStage_val (rq : Req) (g : Fin 4) {a : DescArgs} {d : Clamped Descriptor} (h : readDescriptor a = some d) (s : State) :
    exec (.groupStage rq g.val a) s =
      .next (if s.groupReady g then
          match s.groupFailure d.val (s.groupMembers g) with
          | some f => (s.arrive (.groupStage rq g.val a)).respond rq f.2 (.member f.1)
          | none => ((s.groupMembers g).foldl (fun x i => x.setSched i (x.sched[i].addDescriptor d.val))
              (s.arrive (.groupStage rq g.val a))).respondOk rq d.changed (.late (lateIndication s.station.time d.val.start))
        else (s.arrive (.groupStage rq g.val a)).respond rq .state .nothing) := by
  simp only [exec, execGroupStage, asFin_val, h]
  have ready : (s.arrive (.groupStage rq g.val a)).groupReady g = s.groupReady g := rfl
  rw [ready]
  cases s.groupReady g <;> rfl

/-- Settles O13: GROUP STAGE is refused as a whole, or every member takes the descriptor. -/
theorem groupStageIsAllOrNothing : Obligations.GroupStageIsAllOrNothing := by
  refine ⟨fun s rq n a bad => exec_groupStage_bad rq bad s, ?_⟩
  intro s rq g a cls profile fits code number c u d late member fails ready
  have run := exec_groupStage_val rq g (readDescriptor_eq_some fits code number) s
  have isMember (i : Svc) : i ∈ s.groupMembers g ↔ member i := s.mem_groupMembers g i
  have isReady : s.groupReady g = true ↔ ready := s.groupReady_iff g
  refine ⟨fun not => ?_, fun i st r mem failed first => ?_, fun r pass => ?_⟩
  · rw [run, if_neg (not ∘ isReady.mp)]
  · have failure : s.groupFailure d (s.groupMembers g) = some (i, st) :=
      State.groupFailure_eq_some ((isMember i).mpr mem) failed fun k below hk => first k below ((isMember k).mp hk)
    rw [run, if_pos (isReady.mpr r)]
    rw [failure]
  · have none_fails : s.groupFailure d (s.groupMembers g) = none :=
      State.groupFailure_eq_none fun i hi => pass i ((isMember i).mp hi)
    obtain ⟨sched, staged⟩ := State.foldl_addDescriptor_eq d (s.groupMembers g) u
    have at_i (i : Svc) : sched[i] = if i ∈ s.groupMembers g then s.sched[i].addDescriptor d else s.sched[i] := by
      have := State.foldl_addDescriptor_sched d (s.groupMembers_nodup g) u i
      rwa [staged] at this
    refine ⟨sched, fun i mem => ?_, fun i other => ?_, ?_⟩
    · rw [at_i, if_pos ((isMember i).mpr mem)]
      rfl
    · rw [at_i, if_neg (other ∘ (isMember i).mp)]
    · rw [run, if_pos (isReady.mpr r), none_fails]
      dsimp only
      rw [staged, State.respondOk_decide_not, lateIndication_eq] <;> rfl

end Sys2Proof.Machine
end

section
/-!
The schedule unit at an MI tick (2.4, 2.5): what each service does, what completes, and how the recording view marks segments.
-/

namespace Sys2Proof.Machine

/-! ### Completion (R32 to R34) -/

theorem Segment.needsSummaries_iff (g : Segment) : g.needsSummaries = true ↔ g.cause ≠ some .skipped := by
  unfold Segment.needsSummaries
  cases g.cause with
  | none => simp
  | some c => cases c <;> simp

/-- The segment ends above `m`, or has not ended. -/
theorem endsAbove_iff (g : Segment) (m : Mi) :
    (match g.endMi with
      | none => true
      | some e => decide (m < e)) = true ↔ ∀ e ∈ g.endMi, m < e := by
  cases g.endMi <;> simp

/-- R33: what "NOT_RECORDING from `m`" does to a closing segment. -/
theorem Segment.markFrom_eq (m : Mi) (g : Segment) :
    g.markFrom m = if g.cause ≠ some .skipped ∧ ∀ e ∈ g.endMi, m < e then { g with incomplete := true } else g := by
  refine if_congr ?_ rfl rfl
  rw [Bool.and_eq_true, g.needsSummaries_iff]
  exact and_congr_right fun _ => endsAbove_iff g m

/-- R34: what a NOT_RECORDING period does to a segment. -/
theorem Segment.markPeriod_eq (m m' : Mi) (g : Segment) :
    g.markPeriod m m' =
      if g.cause ≠ some .skipped ∧ m < m' ∧ g.actualStart < m' ∧ ∀ e ∈ g.endMi, m < e then { g with incomplete := true } else g := by
  refine if_congr ?_ rfl rfl
  simp only [Bool.and_eq_true, g.needsSummaries_iff, decide_eq_true_iff, and_assoc]
  exact and_congr_right fun _ => and_congr_right fun _ => and_congr_right fun _ => endsAbove_iff g m

namespace ServiceSched

/-- R34: the mark that the view sets at a completion. -/
theorem markAtCompletion_eq (x : ServiceSched) (g : Segment) :
    x.markAtCompletion g =
      if x.view = .notRecording ∧ g.cause ≠ some .skipped ∧ ∃ m ∈ x.viewFrom, ∀ e ∈ g.endMi, m < e then
        { g with incomplete := true }
      else g := by
  unfold markAtCompletion
  cases x.view with
  | recording => exact (if_neg fun h => nomatch h.1).symm
  | notRecording =>
    cases x.viewFrom with
    | none => exact (if_neg fun ⟨_, _, m, h, _⟩ => nomatch h).symm
    | some m => exact (g.markFrom_eq m).trans (if_congr (by simp) rfl rfl)

/-- R32: the entries of the closing set that complete, with their final flags. -/
def completing (x : ServiceSched) : List Segment := (x.closing.takeWhile Segment.complete).map x.markAtCompletion

theorem completing_eq (x : ServiceSched) :
    x.completing =
      (x.closing.takeWhile fun g => decide (g.cause = some .skipped) || (g.meterSummary.isSome && g.captionSummary.isSome)).map
        fun g : Segment =>
          if x.view = .notRecording ∧ g.cause ≠ some .skipped ∧ ∃ m ∈ x.viewFrom, ∀ e ∈ g.endMi, m < e then
            { g with incomplete := true }
          else g := by
  rw [completing, funext Segment.complete_eq, funext x.markAtCompletion_eq]

theorem settled_eq (x : ServiceSched) :
    x.settled =
      { x with
        closing := x.closing.dropWhile fun g =>
          decide (g.cause = some .skipped) || (g.meterSummary.isSome && g.captionSummary.isSome) } := by
  rw [settled, funext Segment.complete_eq]

theorem settled_of_completing_eq_nil {x : ServiceSched} (h : x.completing = []) : x.settled = x := by
  have rest := List.takeWhile_append_dropWhile (p := Segment.complete) (l := x.closing)
  rw [List.map_eq_nil_iff.mp h, List.nil_append] at rest
  rw [settled, rest]

end ServiceSched

/-- R32: a service's closing set is settled, and what completes is taken by the compliance unit. -/
theorem State.settleClosing_eq_settled (s : State) (i : Svc) :
    s.settleClosing i =
      if s.sched[i].completing = [] then s.setSched i s.sched[i].settled
      else (s.setSched i s.sched[i].settled).complete (s.sched[i].completing.map (.completion i)) := by
  rw [State.settleClosing_eq]
  by_cases h : s.sched[i].completing = []
  · rw [if_pos h, if_pos (List.map_eq_nil_iff.mp h), ServiceSched.settled_of_completing_eq_nil h, State.setSched_self]
  · rw [if_neg h, if_neg (h ∘ List.map_eq_nil_iff.mpr)]
    rfl

theorem State.setSched_setSched (s : State) (i : Svc) (x y : ServiceSched) : (s.setSched i x).setSched i y = s.setSched i y := by
  simp [State.setSched]

theorem State.setSched_settleClosing (s : State) (i : Svc) (x : ServiceSched) :
    (s.setSched i x).settleClosing i =
      if x.completing = [] then s.setSched i x.settled
      else (s.setSched i x.settled).complete (x.completing.map (.completion i)) := by
  have there : (s.setSched i x).sched[i] = x := by simp
  rw [State.settleClosing_eq_settled, there, State.setSched_setSched]

/-- R32: how a summary is marked received, in the terms of the statement. -/
theorem ServiceSched.takeMeterSummary_eq (x : ServiceSched) (inst : Nat) (m : MeterSummary) :
    x.takeMeterSummary inst m =
      { x with closing := x.closing.map fun g =>
        if g.inst = inst ∧ g.cause ≠ some .skipped ∧ g.meterSummary = none then { g with meterSummary := some m } else g } := by
  simp only [takeMeterSummary, Segment.needsSummaries_iff]

theorem ServiceSched.takeCaptionSummary_eq (x : ServiceSched) (inst : Nat) (m : CaptionSummary) :
    x.takeCaptionSummary inst m =
      { x with closing := x.closing.map fun g =>
        if g.inst = inst ∧ g.cause ≠ some .skipped ∧ g.captionSummary = none then { g with captionSummary := some m } else g } := by
  simp only [takeCaptionSummary, Segment.needsSummaries_iff]

/-- Settles O18: the entry that the summary names is marked, and then the closing set is settled. -/
theorem summaryCompletesTheHeadOfTheClosingSet : Obligations.SummaryCompletesTheHeadOfTheClosingSet := by
  intro s i inst c mark arrival x ready closing done u
  have run : exec c s = .next (((s.arrive c).setSched i { x with closing := closing }).settleClosing i) := by
    rcases arrival with ⟨m, rfl, rfl⟩ | ⟨m, rfl, rfl⟩
    · exact congrArg (fun y => Host.Outcome.next (((s.arrive _).setSched i y).settleClosing i)) (x.takeMeterSummary_eq inst m)
    · exact congrArg (fun y => Host.Outcome.next (((s.arrive _).setSched i y).settleClosing i)) (x.takeCaptionSummary_eq inst m)
  rw [State.setSched_settleClosing, ServiceSched.completing_eq, ServiceSched.settled_eq] at run
  exact ⟨fun none => run.trans (congrArg Host.Outcome.next (if_pos none)), fun some => run.trans (congrArg Host.Outcome.next (if_neg some))⟩

/-! ### Recording state changes (R33, R34) -/

theorem exec_recordingStateChanged (i : Svc) (state : Recording) (m : Mi) (inst : Nat) (s : State) :
    exec (.recordingStateChanged i state m inst) s =
      .next (if s.sched[i].runInst = some inst then
          (s.arrive (.recordingStateChanged i state m inst)).setSched i (s.sched[i].takeRecordingState state m)
        else s.arrive (.recordingStateChanged i state m inst)) := rfl

theorem ServiceSched.takeRecordingState_off (x : ServiceSched) (m : Mi) :
    x.takeRecordingState .notRecording m =
      { x with
        view := .notRecording
        viewFrom := if x.view = .notRecording then x.viewFrom else some m
        openSeg := x.openSeg.map fun g => { g with incomplete := true }
        closing := x.closing.map (Segment.markFrom m) } := rfl

theorem ServiceSched.takeRecordingState_on {x : ServiceSched} {m₀ : Mi} (view : x.view = .notRecording) (since : x.viewFrom = some m₀)
    (m : Mi) :
    x.takeRecordingState .recording m =
      { x with
        view := .recording
        viewFrom := some m
        openSeg := x.openSeg.map (Segment.markPeriod m₀ m)
        closing := x.closing.map (Segment.markPeriod m₀ m) } := by
  simp only [takeRecordingState, view, since]

theorem ServiceSched.takeRecordingState_still {x : ServiceSched} (view : x.view = .recording) (m : Mi) :
    x.takeRecordingState .recording m = x := by
  simp only [takeRecordingState, view]

/-- Settles O17: the message is taken only under the number of the latest run, and marks what the two states of the view say. -/
theorem recordingStateMarksSegments : Obligations.RecordingStateMarksSegments := by
  intro s i state m inst c u x mark endsAbove
  have run := exec_recordingStateChanged i state m inst s
  refine ⟨fun other => ?_, fun latest off => ?_, fun m₀ latest on view since => ?_, fun latest on view => ?_⟩
  · rw [run, if_neg other]
  · have marked : Segment.markFrom m = mark (endsAbove m) :=
      funext fun g => (g.markFrom_eq m).trans (if_congr Iff.rfl rfl rfl)
    subst off
    rw [run, if_pos latest, ServiceSched.takeRecordingState_off, marked]
    rfl
  · have marked : Segment.markPeriod m₀ m = mark fun g => m₀ < m ∧ g.actualStart < m ∧ endsAbove m₀ g :=
      funext fun g => (g.markPeriod_eq m₀ m).trans (if_congr Iff.rfl rfl rfl)
    subst on
    rw [run, if_pos latest, ServiceSched.takeRecordingState_on view since, marked]
    rfl
  · subst on
    rw [run, if_pos latest, ServiceSched.takeRecordingState_still view]
    exact congrArg Host.Outcome.next ((s.arrive _).setSched_self i)

/-! ### One service at a tick (R19, R20, R27 to R31) -/

namespace ServiceSched

variable {x : ServiceSched} {t : Mi} (svc : Svc) (r : ServiceRecord) (profiles : Vector Profile 8) (held : Bool)

theorem tick_of_starting (h : x.state = .starting) : x.tick svc r profiles t held = x.openingTick svc r t := by
  rw [tick, h]

/-- R27 to R30: the tick of a RUNNING service, with the reference-held indication marked on its open segment. -/
theorem tick_of_running {g : Segment} (running : x.state = .running) (isOpen : x.openSeg = some g) :
    x.tick svc r profiles t held =
      let y : ServiceSched := { x with openSeg := some { g with referenceLost := g.referenceLost || !held } }
      if x.stopPending then y.stoppingTick svc t
      else if (x.due t).isEmpty then y.lengthTick svc r profiles t
      else y.switchTick svc r t := by
  have marked : x.markReference held = { x with openSeg := some { g with referenceLost := g.referenceLost || !held } } := by
    rw [markReference_eq, isOpen]
    rfl
  simp only [tick, running, marked]
  rfl

/-- R28: due descriptors take over from the open segment, in the terms of an opening. -/
theorem switchTick_of_due {g : Segment} {gone : List Descriptor} {d : Descriptor} (isOpen : x.openSeg = some g)
    (h : x.due t = gone ++ [d]) :
    x.switchTick svc r t =
      let o := ({ x with
        staging := x.notDue t
        openSeg := none
        instCounter := nextInstance^[gone.length] x.instCounter
        closing := x.closing ++ [g.close .next t] ++ gone.mapIdx fun k e => Segment.skipped (nextInstance^[k + 1] x.instCounter) e t }
        : ServiceSched).openNew svc fun n => Segment.staged n d t
      (o.1, closedMessages svc g t ++ o.2) := by
  have opened := openDue_of_due (x := { x with openSeg := none, closing := x.closing ++ [g.close .next t] }) h svc r
  have closed : x.closeOpen svc .next t = ({ x with openSeg := none, closing := x.closing ++ [g.close .next t] }, closedMessages svc g t) := by
    rw [closeOpen_eq, isOpen]
    exact congrArg (Prod.mk _) (List.append_nil _)
  unfold switchTick
  rw [closed]
  exact congrArg (fun o : ServiceSched × List Instr => (o.1, closedMessages svc g t ++ o.2)) opened

theorem due_isEmpty_iff : (x.due t).isEmpty = true ↔ ∀ d ∈ x.staging, t < d.start := by
  rw [List.isEmpty_iff, due_eq_nil_iff]

/-- R29, R30: the limit of an open segment, from which on an UNSCHEDULED one rolls over and any other overruns. -/
theorem lengthTick_of_open {g : Segment} (isOpen : x.openSeg = some g) :
    x.lengthTick svc r profiles t =
      if (if g.cls = .unscheduled then g.actualStart + g.planned else g.actualStart + g.planned + profiles[g.profile].overrun) ≤ t then
        let o := x.replaceOpen svc r (if g.cls = .unscheduled then .rollover else .overrun) t
        (o.1, o.2 ++ (if g.cls = .unscheduled then [] else [notice .scheduleOverrun (some svc) (some t) (.segment g.id)]))
      else (x, []) := by
  unfold lengthTick
  rw [isOpen]
  dsimp only
  by_cases h : g.cls = .unscheduled
  · simp only [if_pos h, List.append_nil]
  · simp only [if_neg h]

end ServiceSched

/-- Settles O15: a tick with a stop pending, with the limit reached, with the limit ahead, and at the start of a run. -/
theorem tickStopsOverrunsOrRollsOver : Obligations.TickStopsOverrunsOrRollsOver := by
  intro x i r profiles t held g g₁ closed closes n fresh opens limit
  refine ⟨fun running isOpen pending => ?_, fun running isOpen going noneDue => ⟨fun before => ?_, fun after => ?_⟩, fun starting noneDue => ?_⟩
  · rw [ServiceSched.tick_of_running i r profiles held running isOpen]
    dsimp only
    rw [if_pos pending]
    rfl
  · rw [ServiceSched.tick_of_running i r profiles held running isOpen]
    dsimp only
    rw [if_neg (Bool.eq_false_iff.mp going), if_pos (ServiceSched.due_isEmpty_iff.mpr noneDue), ServiceSched.lengthTick_of_open (g := g₁) i r profiles rfl,
      if_neg (Nat.not_le.mpr before)]
  · rw [ServiceSched.tick_of_running i r profiles held running isOpen]
    dsimp only
    rw [if_neg (Bool.eq_false_iff.mp going), if_pos (ServiceSched.due_isEmpty_iff.mpr noneDue), ServiceSched.lengthTick_of_open (g := g₁) i r profiles rfl,
      if_pos after]
    rfl
  · rw [ServiceSched.tick_of_starting i r profiles held starting, ServiceSched.openingTick,
      ServiceSched.openDue_of_none_due ((ServiceSched.due_eq_nil_iff x t).mpr noneDue)]
    rfl

theorem Segment.staged_eq (n : Nat) (d : Descriptor) (t : Mi) :
    Segment.staged n d t =
      { inst := n, id := some d.id, cls := d.cls, profile := d.profile, planned := d.planned, stagedStart := d.start
        actualStart := t, endMi := none, cause := none, late := decide (d.start ≠ t), referenceLost := false
        incomplete := false, meterSummary := none, captionSummary := none } := by
  rw [Segment.staged, show (d.start != t) = decide (d.start ≠ t) by rw [bne, beq_eq_decide, decide_not]]

/-- Settles O16: the open segment closes, the due descriptors but the last give way, and the last opens. -/
theorem tickOpensTheLastDueDescriptor : Obligations.TickOpensTheLastDueDescriptor := by
  intro x i r profiles t held gone d due inst made skipped n opens staging
  have instance_eq (k : Nat) : nextInstance^[k + 1] x.instCounter = inst k := rfl
  have next : nextInstance (nextInstance^[gone.length] x.instCounter) = n := (Function.iterate_succ_apply' ..).symm
  have staged (k : Nat) (e : Descriptor) : Segment.staged k e t = made k e := Segment.staged_eq k e t
  have give (k : Nat) (e : Descriptor) :
      Segment.skipped (nextInstance^[k + 1] x.instCounter) e t =
        { made (inst k) e with endMi := some t, cause := some .skipped, late := true } := by
    rw [Segment.skipped, staged, instance_eq]
  refine ⟨fun g running going isOpen => ?_, fun starting => ?_⟩
  · have some_due : ¬ (x.due t).isEmpty = true := by
      rw [show x.due t = gone ++ [d] from due]
      simp
    rw [ServiceSched.tick_of_running i r profiles held running isOpen]
    dsimp only
    rw [if_neg (Bool.eq_false_iff.mp going), if_neg some_due]
    rw [ServiceSched.switchTick_of_due (x := { x with openSeg := some { g with referenceLost := g.referenceLost || !held } })
      (gone := gone) (d := d) i r rfl due]
    simp only [ServiceSched.openNew, next, staged, give, List.append_assoc, List.singleton_append]
    rfl
  · rw [ServiceSched.tick_of_starting i r profiles held starting, ServiceSched.openingTick,
      ServiceSched.openDue_of_due (gone := gone) (d := d) due]
    simp only [ServiceSched.openNew, next, staged, give]
    rfl

end Sys2Proof.Machine
end

section
/-!
The MI tick of the schedule unit over all services (2.4): each service's own work, with what it completes.
-/

namespace Sys2Proof.Machine

/-- R9: the spans of a service after a tick, by its state before and after. -/
theorem spansAfter_eq (k : Int) (old new : SvcState) (l : List OpenSpan) :
    spansAfter k old new l =
      if old ≠ .running ∧ new = .running then l ++ [⟨k, none⟩]
      else if old = .running ∧ new ≠ .running then l.map fun p => { p with upTo := some (p.upTo.getD (k - 1)) }
      else l := by
  by_cases h : old = .running <;> by_cases h' : new = .running <;> simp [spansAfter, beq_eq_decide, OpenSpan.endAt, h, h']

namespace State

/-- 2.4: the tick of service `i` as it reads state `s`, taken to a state that has come so far. -/
def tickInto (s : State) (t : Mi) (held : Bool) (k : Int) (v : State) (i : Svc) : State :=
  let w := s.sched[i].tick i s.map[i] s.compliance.profiles t held
  let y := { v.setSched i w.1.settled with
    openSpans := v.openSpans.set i (spansAfter k s.sched[i].state w.1.state s.openSpans[i]) }.send w.2
  if w.1.completing = [] then y else y.complete (w.1.completing.map (.completion i))

/-- What a service reads at its tick. -/
structure ReadsAs (s v : State) (i : Svc) : Prop where
  sched : v.sched[i] = s.sched[i]
  map : v.map[i] = s.map[i]
  profiles : v.compliance.profiles = s.compliance.profiles
  openSpans : v.openSpans[i] = s.openSpans[i]

/-- R32: what one service's tick leaves, settled. -/
theorem settleClosing_of_ticked (v : State) (i : Svc) (k : Int) (old : SvcState) (w : ServiceSched × List Instr) :
    (((v.setSched i w.1).noteRun i k old).send w.2).settleClosing i =
      let y := { v.setSched i w.1.settled with openSpans := v.openSpans.set i (spansAfter k old w.1.state v.openSpans[i]) }.send w.2
      if w.1.completing = [] then y else y.complete (w.1.completing.map (.completion i)) := by
  have there : (((v.setSched i w.1).noteRun i k old).send w.2).sched[i] = w.1 := by simp
  have whole : (((v.setSched i w.1).noteRun i k old).send w.2).setSched i w.1.settled =
      { v.setSched i w.1.settled with openSpans := v.openSpans.set i (spansAfter k old w.1.state v.openSpans[i]) }.send w.2 := by
    simp [setSched, noteRun, send]
  rw [settleClosing_eq_settled, there, whole]

theorem scheduleTick_eq_tickInto {s v : State} {i : Svc} (h : s.ReadsAs v i) (t : Mi) (held : Bool) (k : Int) :
    v.scheduleTick t held k i = s.tickInto t held k v i := by
  unfold scheduleTick tickInto
  rw [settleClosing_of_ticked, h.sched, h.map, h.profiles, h.openSpans]

theorem tickInto_profiles_mark (s : State) (t : Mi) (held : Bool) (k : Int) (v : State) (i : Svc) :
    (s.tickInto t held k v i).compliance.profiles = v.compliance.profiles ∧
      (s.tickInto t held k v i).compliance.mark = v.compliance.mark := by
  unfold tickInto
  dsimp only
  split
  · exact ⟨rfl, rfl⟩
  · exact Compliance.writeAll_keeps ..

/-- A tick changes the schedule, the compliance unit's writing and the messages under way. -/
theorem tickInto_frame (s : State) (t : Mi) (held : Bool) (k : Int) (v : State) (i : Svc) :
    s.tickInto t held k v i =
      { v with
        sched := v.sched.set i (s.tickOf t held i)
        openSpans := v.openSpans.set i
          (spansAfter k s.sched[i].state (s.sched[i].tick i s.map[i] s.compliance.profiles t held).1.state s.openSpans[i])
        compliance := (s.tickInto t held k v i).compliance
        inFlight := (s.tickInto t held k v i).inFlight } := by
  unfold tickInto
  dsimp only
  split <;> rfl

/-- The messages of a service's tick, in their order, behind those under way. -/
theorem tickInto_inFlight (s : State) (t : Mi) (held : Bool) (k : Int) (v : State) (i : Svc) :
    ∃ after, (s.tickInto t held k v i).inFlight =
      v.inFlight ++ ((s.sched[i].tick i s.map[i] s.compliance.profiles t held).2 ++ after) := by
  unfold tickInto
  dsimp only
  split
  · exact ⟨[], by simp⟩
  · exact ⟨_, List.append_assoc ..⟩

theorem ReadsAs.tickInto {s v : State} {i j : Svc} (h : s.ReadsAs v j) (ne : j ≠ i) (t : Mi) (held : Bool) (k : Int) :
    s.ReadsAs (s.tickInto t held k v i) j := by
  have apart : (i : Nat) ≠ j := fun e => ne (Fin.ext e.symm)
  refine ⟨?_, ?_, (tickInto_profiles_mark ..).1.trans h.profiles, ?_⟩
  · rw [tickInto_frame, ← h.sched]
    simp [apart]
  · rw [tickInto_frame, ← h.map]
  · rw [tickInto_frame, ← h.openSpans]
    simp [apart]

/-- 2.4: the services' ticks in ascending number, each as it reads the state before all of them. -/
theorem foldl_scheduleTick_eq (s : State) (t : Mi) (held : Bool) (k : Int) {l : List Svc} (nodup : l.Nodup) {v : State}
    (h : ∀ i ∈ l, s.ReadsAs v i) :
    l.foldl (fun x i => x.scheduleTick t held k i) v = l.foldl (s.tickInto t held k) v := by
  induction l generalizing v with
  | nil => rfl
  | cons i l ih =>
    obtain ⟨fresh, nodup⟩ := List.nodup_cons.mp nodup
    rw [List.foldl_cons, List.foldl_cons, scheduleTick_eq_tickInto (h i List.mem_cons_self)]
    exact ih nodup fun j hj => (h j (List.mem_cons_of_mem i hj)).tickInto (fun e : j = i => fresh (e ▸ hj)) t held k

/-- What the services' ticks leave as it was. -/
theorem foldl_tickInto_frame (s : State) (t : Mi) (held : Bool) (k : Int) (l : List Svc) (v : State) :
    let w := l.foldl (s.tickInto t held k) v
    w = { v with sched := w.sched, openSpans := w.openSpans, compliance := w.compliance, inFlight := w.inFlight } ∧
      w.compliance.profiles = v.compliance.profiles ∧ w.compliance.mark = v.compliance.mark := by
  induction l generalizing v with
  | nil => exact ⟨rfl, rfl, rfl⟩
  | cons i l ih =>
    obtain ⟨frame, profiles, mark⟩ := ih (s.tickInto t held k v i)
    obtain ⟨profiles', mark'⟩ := s.tickInto_profiles_mark t held k v i
    refine ⟨?_, profiles.trans profiles', mark.trans mark'⟩
    rw [List.foldl_cons, frame, tickInto_frame]

theorem foldl_tickInto_sent (s : State) (t : Mi) (held : Bool) (k : Int) (l : List Svc) (v : State) :
    ∃ sent, (l.foldl (s.tickInto t held k) v).inFlight = v.inFlight ++ sent ∧
      ∀ i ∈ l, (s.sched[i].tick i s.map[i] s.compliance.profiles t held).2 <:+: sent := by
  induction l generalizing v with
  | nil => exact ⟨[], (List.append_nil _).symm, nofun⟩
  | cons i l ih =>
    obtain ⟨sent, queue, parts⟩ := ih (s.tickInto t held k v i)
    obtain ⟨after, own⟩ := s.tickInto_inFlight t held k v i
    refine ⟨(s.sched[i].tick i s.map[i] s.compliance.profiles t held).2 ++ after ++ sent, ?_, ?_⟩
    · rw [List.foldl_cons, queue, own, List.append_assoc]
    · intro j hj
      rcases List.mem_cons.mp hj with rfl | hj
      · exact ⟨[], after ++ sent, by simp⟩
      · exact (parts j hj).trans (List.suffix_append ..).isInfix

theorem foldl_tickInto_sched (s : State) (t : Mi) (held : Bool) (k : Int) (v : State) (i : Svc) :
    (allSvcs.foldl (s.tickInto t held k) v).sched[i] = s.tickOf t held i := by
  rw [foldl_each State.sched (f := s.tickInto t held k) (g := fun _ i => s.tickOf t held i) (fun u i => by rw [tickInto_frame]) (fun _ _ _ _ => rfl)
    allSvcs_nodup, if_pos (mem_allSvcs i)]

theorem foldl_tickInto_openSpans (s : State) (t : Mi) (held : Bool) (k : Int) (v : State) (i : Svc) :
    (allSvcs.foldl (s.tickInto t held k) v).openSpans[i] =
      spansAfter k s.sched[i].state (s.sched[i].tick i s.map[i] s.compliance.profiles t held).1.state s.openSpans[i] := by
  rw [foldl_each State.openSpans (f := s.tickInto t held k)
    (g := fun _ i => spansAfter k s.sched[i].state (s.sched[i].tick i s.map[i] s.compliance.profiles t held).1.state s.openSpans[i])
    (fun u i => by rw [tickInto_frame]) (fun _ _ _ _ => rfl) allSvcs_nodup, if_pos (mem_allSvcs i)]

/-- R9: the interval that a tick begins, in the terms of the statement. -/
theorem begunInterval_eq (s : State) (t : Mi) (held : Bool) :
    s.begunInterval t held =
      let ticks := s.inFlight.filter fun c => match c with
        | .scheduleMiTick _ _ => true
        | _ => false
      match ticks.idxOf? (.scheduleMiTick t held) with
      | some k => s.edges - ticks.length + k + 1
      | none => s.edges + (((t : Int) - s.station.time.getD 0 + 2 ^ 39) % 2 ^ 40 - 2 ^ 39) := rfl

end State

theorem exec_scheduleMiTick (t : Mi) (held : Bool) (s : State) :
    exec (.scheduleMiTick t held) s =
      .next (allSvcs.foldl (s.tickInto t held (s.begunInterval t held)) (s.arrive (.scheduleMiTick t held))) :=
  congrArg Host.Outcome.next (s.foldl_scheduleTick_eq t held _ allSvcs_nodup fun _ _ => ⟨rfl, rfl, rfl, rfl⟩)

/-- Settles O14: every service's tick reads the state before the tick, so each goes its own way. -/
theorem scheduleTickIsPerService : Obligations.ScheduleTickIsPerService := by
  intro s t held u w ready done ticks begun spans after
  have same : s.tickInto t held begun = after := by
    funext v i
    simp only [State.tickInto, ServiceSched.completing_eq, ServiceSched.settled_eq, spansAfter_eq]
    rfl
  have k : s.begunInterval t held = begun := s.begunInterval_eq t held
  obtain ⟨frame, profiles, mark⟩ := s.foldl_tickInto_frame t held begun allSvcs u
  obtain ⟨sent, queue, parts⟩ := s.foldl_tickInto_sent t held begun allSvcs u
  refine ⟨allSvcs.foldl (s.tickInto t held begun) u, ?_, ?_, fun i => ?_, fun i => ?_, frame, profiles, mark, sent, queue,
    fun i => parts i (mem_allSvcs i)⟩
  · rw [exec_scheduleMiTick, k]
  · rw [same]
    rfl
  · rw [State.foldl_tickInto_sched, State.tickOf, ServiceSched.settled_eq]
  · rw [State.foldl_tickInto_openSpans, spansAfter_eq]

end Sys2Proof.Machine
end

section
/-!
The loudness meter (chapters 3 and 4): what is held, what is due, what a settled meter looks like, and the survey requests.
-/

namespace Sys2Proof.Machine

/-! ### What has completed and what is due (R41, R42, R54) -/

theorem MeterSegment.holds_eq (g : MeterSegment) (m : Mi) :
    g.holds m = (decide (g.start ≤ m) && g.endMi.all fun e => decide (m < e)) := by
  unfold holds
  cases g.endMi <;> rfl

namespace MeterSvc

/-- R54: the condition of a summary, as the statements say it. -/
def Done (x : MeterSvc) (g : MeterSegment) : Prop :=
  ∃ e, g.endMi = some e ∧ g.start < e ∧ ∀ m, g.start ≤ m → m < e →
    (∃ a, x.runStart = some a ∧ a ≤ m) ∧ (∃ b, x.ring.getLast? = some b ∧ m ≤ b.mi) ∧
      ∀ p ∈ x.passed, ¬ (p.first ≤ m ∧ m < p.behind)

theorem finished_iff_done (x : MeterSvc) (g : MeterSegment) : x.finished g = true ↔ x.Done g := by
  have last (m : Mi) : (∃ c, x.lastCompleted = some c ∧ m ≤ c) ↔ ∃ b, x.ring.getLast? = some b ∧ m ≤ b.mi := by
    simp [lastCompleted]
  simp only [finished_iff, hasCompleted_iff, last]
  rfl

variable (x : MeterSvc) (svc : Svc)

/-- R41, R42: the MI that is due is the lowest held, with its judgment, its end tick and its segment. -/
theorem due_eq_some_iff (h : HeldMi) (j : Judgment) (g : MeterSegment) :
    x.due = some (h, j, g) ↔
      x.run = .measuring ∧ x.input.head? = some h ∧ h.judgment = some j ∧ h.endTick = true ∧ x.attributed h.mi = some g := by
  unfold due
  constructor
  · intro e
    split at e
    · next run head =>
      split at e
      · next judged ticked mine =>
        simp only [Option.some.injEq, Prod.mk.injEq] at e
        obtain ⟨rfl, rfl, rfl⟩ := e
        exact ⟨run, head, judged, ticked, mine⟩
      · cases e
    · cases e
  · rintro ⟨run, head, judged, ticked, mine⟩
    simp only [run, head, judged, ticked, mine]

theorem attributed_eq (m : Mi) :
    x.attributed m = (x.segments.filter fun k => decide (k.start ≤ m) && k.endMi.all fun e => decide (m < e)).getLast? := by
  simp only [attributed, MeterSegment.holds_eq]

/-! ### Summaries (R54) -/

theorem sendSummaries_of_none_finished (h : ∀ g ∈ x.segments, x.finished g = false) : x.sendSummaries svc = (x, []) := by
  have stay : x.segments.filter (fun g => !x.finished g) = x.segments := List.filter_eq_self.mpr fun g hg => by rw [h g hg]; rfl
  have go : x.segments.filter x.finished = [] := List.filter_eq_nil_iff.mpr fun g hg => Bool.eq_false_iff.mp (h g hg)
  rw [sendSummaries, stay, go]
  rfl

/-- After the summaries have been sent no entry's condition holds. -/
theorem sendSummaries_finished : ∀ g ∈ (x.sendSummaries svc).1.segments, (x.sendSummaries svc).1.finished g = false := by
  intro g hg
  have := (List.mem_filter.mp hg).2
  exact Bool.not_eq_true' _ ▸ this

theorem sendSummaries_twice : (x.sendSummaries svc).1.sendSummaries svc = ((x.sendSummaries svc).1, []) :=
  sendSummaries_of_none_finished _ svc (x.sendSummaries_finished svc)

/-! ### What is due comes about (R42) -/

theorem completeDue_of_none (h : x.due = none) : x.completeDue svc = (x, []) := by
  rw [completeDue, h]

theorem completeDue_of_due {h : HeldMi} {j : Judgment} {g : MeterSegment} (due : x.due = some (h, j, g)) :
    x.completeDue svc =
      (((x.completeMi svc h j g).1.sendSummaries svc).1,
        (x.completeMi svc h j g).2 ++ ((x.completeMi svc h j g).1.sendSummaries svc).2) := by
  rw [completeDue, due]

/-- The MI that completes leaves the input list. -/
theorem completeDue_input_lt (due : x.due.isSome) : (x.completeDue svc).1.input.length < x.input.length := by
  obtain ⟨⟨h, j, g⟩, due⟩ := Option.isSome_iff_exists.mp due
  have head := ((x.due_eq_some_iff h j g).mp due).2.1
  rw [x.completeDue_of_due svc due]
  show (x.input.filter fun e => e.mi != h.mi).length < x.input.length
  exact List.length_filter_lt_length_iff_exists.mpr ⟨h, List.mem_of_mem_head? head, by simp⟩

theorem completeDue_finished (due : x.due.isSome) :
    ∀ g ∈ (x.completeDue svc).1.segments, (x.completeDue svc).1.finished g = false := by
  obtain ⟨⟨h, j, g⟩, due⟩ := Option.isSome_iff_exists.mp due
  rw [x.completeDue_of_due svc due]
  exact sendSummaries_finished _ svc

theorem due_eq_none_of_input (h : x.input.length = 0) : x.due = none := by
  rw [Option.eq_none_iff_forall_ne_some]
  rintro ⟨k, j, g⟩ due
  have head := ((x.due_eq_some_iff k j g).mp due).2.1
  rw [List.length_eq_zero_iff.mp h] at head
  cases head

theorem completeAll_of_none {n : Nat} (h : x.due = none) : completeAll svc n x = (x, []) := by
  cases n with
  | zero => rfl
  | succ n => rw [completeAll, if_pos (by rw [h]; rfl)]

theorem completeAll_of_due {n : Nat} (h : x.due.isSome) :
    completeAll svc (n + 1) x =
      ((completeAll svc n (x.completeDue svc).1).1, (x.completeDue svc).2 ++ (completeAll svc n (x.completeDue svc).1).2) := by
  rw [completeAll, if_neg (by rw [Option.isNone_iff_eq_none]; exact Option.isSome_iff_ne_none.mp h)]

/-- As many rounds as there are held MIs are enough. -/
theorem completeAll_enough {n : Nat} (h : x.input.length ≤ n) : completeAll svc n x = completeAll svc x.input.length x := by
  induction n using Nat.strongRecOn generalizing x with | ind n ih =>
  cases due : x.due with
  | none => rw [completeAll_of_none x svc due, completeAll_of_none x svc due]
  | some d =>
    have some_due : x.due.isSome := by rw [due]; rfl
    have shorter := x.completeDue_input_lt svc some_due
    obtain ⟨m, hm⟩ : ∃ m, x.input.length = m + 1 := ⟨x.input.length - 1, by omega⟩
    obtain ⟨k, rfl⟩ : ∃ k, n = k + 1 := ⟨n - 1, by omega⟩
    rw [hm, completeAll_of_due x svc some_due, completeAll_of_due x svc some_due,
      ih k (Nat.lt_succ_self k) (x.completeDue svc).1 (by omega), ih m (by omega) (x.completeDue svc).1 (by omega)]

theorem completeAll_due {n : Nat} (h : x.input.length ≤ n) : (completeAll svc n x).1.due = none := by
  induction n generalizing x with
  | zero => exact x.due_eq_none_of_input (Nat.le_zero.mp h)
  | succ n ih =>
    cases due : x.due with
    | none => rwa [completeAll_of_none x svc due]
    | some d =>
      have some_due : x.due.isSome := by rw [due]; rfl
      rw [completeAll_of_due x svc some_due]
      exact ih _ (by have := x.completeDue_input_lt svc some_due; omega)

theorem completeAll_finished (n : Nat) (h : ∀ g ∈ x.segments, x.finished g = false) :
    ∀ g ∈ (completeAll svc n x).1.segments, (completeAll svc n x).1.finished g = false := by
  induction n generalizing x with
  | zero => exact h
  | succ n ih =>
    cases due : x.due with
    | none => rwa [completeAll_of_none x svc due]
    | some d =>
      have some_due : x.due.isSome := by rw [due]; rfl
      rw [completeAll_of_due x svc some_due]
      exact ih _ (x.completeDue_finished svc some_due)

/-! ### A settled meter (R42, R54) -/

theorem settle_of_none (h : (x.sendSummaries svc).1.due = none) : x.settle svc = x.sendSummaries svc := by
  rw [settle, completeAll_of_none _ svc h, List.append_nil]

/-- One thing that is due comes about, and then the rest. -/
theorem settle_of_due {h : HeldMi} {j : Judgment} {g : MeterSegment} (due : (x.sendSummaries svc).1.due = some (h, j, g)) :
    x.settle svc =
      let a := x.sendSummaries svc
      let c := a.1.completeMi svc h j g
      let y := c.1.sendSummaries svc
      ((y.1.settle svc).1, a.2 ++ c.2 ++ y.2 ++ (y.1.settle svc).2) := by
  have some_due : (x.sendSummaries svc).1.due.isSome := by rw [due]; rfl
  have shorter := (x.sendSummaries svc).1.completeDue_input_lt svc some_due
  have length : (x.sendSummaries svc).1.input.length = x.input.length := rfl
  obtain ⟨m, hm⟩ : ∃ m, x.input.length = m + 1 := ⟨x.input.length - 1, by omega⟩
  have done := (x.sendSummaries svc).1.completeDue_of_due svc due
  have again := sendSummaries_twice ((x.sendSummaries svc).1.completeMi svc h j g).1 svc
  rw [done] at shorter
  rw [settle, hm, completeAll_of_due _ svc some_due, done, completeAll_enough _ svc (by omega)]
  simp only [settle, again, List.nil_append, List.append_assoc]

theorem settle_due : (x.settle svc).1.due = none := completeAll_due _ svc (Nat.le_refl x.input.length)

theorem settle_finished : ∀ g ∈ (x.settle svc).1.segments, (x.settle svc).1.finished g = false :=
  completeAll_finished _ svc _ (x.sendSummaries_finished svc)

/-! ### The drain (R43) -/

theorem newHeld_eq (m : Mi) :
    x.newHeld m = ⟨m, [], none, match x.lastTick with
      | none => false
      | some t => decide (m < t)⟩ := by
  unfold newHeld
  cases x.lastTick <;> rfl

theorem find?_held (l : List HeldMi) (m : Mi) : l.find? (·.mi == m) = l.find? fun h => decide (h.mi = m) :=
  congrArg (l.find? ·) (funext fun _ => beq_eq_decide ..)

theorem nextMi_eq : x.nextMi = match x.ring.getLast? with
    | none => x.runStart.getD 0
    | some r => r.mi + 1 := by
  unfold nextMi lastCompleted
  cases x.ring.getLast? <;> rfl

theorem drainFrom_of_unattributed {m : Mi} (h : x.attributed m = none) (n : Nat) :
    drainFrom svc (n + 1) m x = drainFrom svc n (m + 1) x := by
  rw [drainFrom, h]

theorem drainFrom_of_attributed {m : Mi} {g : MeterSegment} (mine : x.attributed m = some g) (n : Nat) :
    drainFrom svc (n + 1) m x =
      let h := (x.input.find? (·.mi == m)).getD (x.newHeld m)
      let c := x.completeMi svc h (h.judgment.getD .absent) g
      let y := c.1.sendSummaries svc
      let r := drainFrom svc n (m + 1) y.1
      (r.1, c.2 ++ y.2 ++ r.2) := by
  rw [drainFrom, mine]

end MeterSvc

/-! ### The data of an MI (R40) -/

namespace MeterSvc

/-- R40: data of an idle meter, of an MI below the run or of one completed is discarded. -/
theorem discards_iff (x : MeterSvc) (m : Mi) :
    x.discards m = true ↔
      x.run = .idle ∨ (∃ a, x.runStart = some a ∧ m < a) ∨ ∃ b, x.ring.getLast? = some b ∧ m ≤ b.mi := by
  unfold discards lastCompleted
  rcases x.runStart with _ | a <;> rcases x.ring.getLast? with _ | b <;> simp [or_assoc]

theorem forall_mem_hold {P : HeldMi → Prop} {new : HeldMi} {f : HeldMi → HeldMi} {l : List HeldMi} (hn : P (f new))
    (hf : ∀ h ∈ l, P (f h)) (hl : ∀ h ∈ l, P h) : ∀ h ∈ hold new f l, P h := by
  induction l with
  | nil => simpa [hold] using hn
  | cons k l ih =>
    unfold hold
    split
    · exact List.forall_mem_cons.mpr ⟨hf k List.mem_cons_self, (List.forall_mem_cons.mp hl).2⟩
    · split
      · exact List.forall_mem_cons.mpr ⟨hn, hl⟩
      · exact List.forall_mem_cons.mpr ⟨(List.forall_mem_cons.mp hl).1,
          ih (List.forall_mem_cons.mp hf).2 (List.forall_mem_cons.mp hl).2⟩

/-- R40: what an ascending input list holds after the data of one MI has changed. -/
theorem mem_hold_iff {new : HeldMi} {f : HeldMi → HeldMi} {l : List HeldMi} (rising : l.Pairwise fun a b => a.mi < b.mi) (h : HeldMi) :
    h ∈ hold new f l ↔
      (h ∈ l ∧ h.mi ≠ new.mi) ∨ h = f ((l.find? fun k => decide (k.mi = new.mi)).getD new) := by
  induction l with
  | nil => simp [hold]
  | cons k l ih =>
    obtain ⟨above, rising⟩ := List.pairwise_cons.mp rising
    unfold hold
    by_cases here : k.mi = new.mi
    · have rest : ∀ a ∈ l, a.mi ≠ new.mi := fun a ha => by
        exact here ▸ Nat.ne_of_gt (above a ha)
      rw [if_pos here, List.find?_cons_of_pos (by simpa using here), List.mem_cons, List.mem_cons]
      constructor
      · rintro (rfl | mem)
        · exact .inr rfl
        · exact .inl ⟨.inr mem, rest h mem⟩
      · rintro (⟨rfl | mem, ne⟩ | rfl)
        · exact absurd here ne
        · exact .inr mem
        · exact .inl rfl
    · rw [if_neg here, List.find?_cons_of_neg (by simpa using here)]
      by_cases before : new.mi < k.mi
      · have rest : ∀ a ∈ k :: l, a.mi ≠ new.mi := List.forall_mem_cons.mpr ⟨here, fun a ha =>
          Nat.ne_of_gt (Nat.lt_trans before (above a ha))⟩
        have none : l.find? (fun k => decide (k.mi = new.mi)) = none :=
          List.find?_eq_none.mpr fun a ha => by simpa using rest a (List.mem_cons_of_mem k ha)
        rw [if_pos before, none, List.mem_cons, or_comm]
        exact or_congr_left ⟨fun mem => ⟨mem, rest h mem⟩, And.left⟩
      · rw [if_neg before, List.mem_cons, List.mem_cons, ih rising, ← or_assoc]
        refine or_congr_left ⟨?_, ?_⟩
        · rintro (rfl | ⟨mem, ne⟩)
          · exact ⟨.inl rfl, here⟩
          · exact ⟨.inr mem, ne⟩
        · rintro ⟨rfl | mem, ne⟩
          · exact .inl rfl
          · exact .inr ⟨mem, ne⟩

theorem hold_rising {new : HeldMi} {f : HeldMi → HeldMi} (keeps : ∀ h, (f h).mi = h.mi) {l : List HeldMi}
    (rising : l.Pairwise fun a b => a.mi < b.mi) : (hold new f l).Pairwise fun a b => a.mi < b.mi := by
  induction l with
  | nil => exact List.pairwise_singleton ..
  | cons k l ih =>
    obtain ⟨above, rest⟩ := List.pairwise_cons.mp rising
    unfold hold
    split
    · exact List.pairwise_cons.mpr ⟨fun a ha => by rw [keeps]; exact above a ha, rest⟩
    · split
      · next before =>
        refine List.pairwise_cons.mpr ⟨List.forall_mem_cons.mpr ⟨by rwa [keeps], fun a ha => ?_⟩, rising⟩
        rw [keeps]
        exact Nat.lt_trans before (above a ha)
      · next ne notBefore =>
        refine List.pairwise_cons.mpr ⟨forall_mem_hold (P := fun a => k.mi < a.mi) ?_ (fun a ha => ?_) above, ih rest⟩
        · rw [keeps]
          exact Nat.lt_of_le_of_ne (Nat.not_lt.mp notBefore) ne
        · rw [keeps]
          exact above a ha

end MeterSvc

/-- Settles O23: data is discarded, or changed under its MI in the ascending list. -/
theorem meterHoldsTheDataOfAnMi : Obligations.MeterHoldsTheDataOfAnMi := by
  intro s i m f j x uf uj old
  have runFrame : exec (.meterSampleFrame i m f) s = .next (uf.setMeter i (x.takeFrame m f)) := rfl
  have runJudgment : exec (.meterJudgment i m j) s = .next (uj.meterDoes i ((x.takeJudgment m j).settle i)) := rfl
  refine ⟨fun gone => ?_, fun acts begun ahead rising => ?_⟩
  · have discards := (x.discards_iff m).mpr gone
    rw [runFrame, runJudgment, MeterSvc.takeFrame, MeterSvc.takeJudgment, if_pos discards, if_pos discards]
    refine ⟨congrArg Host.Outcome.next ?_, rfl⟩
    simp only [State.setMeter, x, uf, State.arrive_meter, Fin.getElem_fin, Vector.set_getElem_self]
    rfl
  · have keeps : ¬ x.discards m = true := by
      rw [x.discards_iff]
      rintro (idle | ⟨a, start, below⟩ | ⟨b, last, above⟩)
      · exact acts idle
      · exact absurd (begun a start) (Nat.not_le.mpr below)
      · exact absurd (ahead b last) (Nat.not_lt.mpr above)
    rw [runFrame, runJudgment, MeterSvc.takeFrame, MeterSvc.takeJudgment, if_neg keeps, if_neg keeps]
    refine ⟨_, _, rfl, rfl, fun h => ?_, fun h => ?_, MeterSvc.hold_rising ?_ rising, MeterSvc.hold_rising ?_ rising⟩
    · rw [MeterSvc.mem_hold_iff rising, MeterSvc.newHeld_eq] <;> exact Iff.rfl
    · rw [MeterSvc.mem_hold_iff rising, MeterSvc.newHeld_eq] <;> exact Iff.rfl
    · exact fun _ => rfl
    · exact fun _ => rfl

/-! ### The commands METER_MI_COMPLETION and METER_SUMMARY (R42, R54) -/

theorem State.meterDoes_nothing (s : State) (i : Svc) : s.meterDoes i (s.meter[i], []) = s := by
  unfold State.meterDoes State.setMeter
  rw [Fin.getElem_fin, Vector.set_getElem_self, State.send_nil]

/-- Settles O25: what is due at a meter, and the two commands that do it. -/
theorem meterCompletesAndSummarises : Obligations.MeterCompletesAndSummarises := by
  intro s i x done
  refine ⟨fun h j g => ?_, fun none => ?_, fun h j g due => ?_, fun none => ?_, x.finished, x.finished_iff_done, rfl⟩
  · rw [x.due_eq_some_iff, x.attributed_eq]
  · exact congrArg Host.Outcome.next ((congrArg (s.meterDoes i) (x.completeDue_of_none i none)).trans (s.meterDoes_nothing i))
  · exact congrArg (fun r => Host.Outcome.next (s.meterDoes i r)) (x.completeDue_of_due i due)
  · have stays := x.sendSummaries_of_none_finished i fun g hg => Bool.eq_false_iff.mpr (none g hg ∘ (x.finished_iff_done g).mp)
    exact congrArg Host.Outcome.next ((congrArg (s.meterDoes i) stays).trans (s.meterDoes_nothing i))

/-! ### The survey requests (R64, R65) -/

theorem Survey.stamp_eq (time : Option Mi) : Survey.stamp time = match time with
    | none => .unset
    | some m => .at m := by
  cases time <;> rfl

theorem exec_startSurvey_val (rq : Req) (i : Svc) {classes : Nat} (h : classes < 32) (s : State) :
    exec (.startSurvey rq i.val classes) s =
      .next (((s.arrive (.startSurvey rq i.val classes)).setSurvey i (Survey.started (BitVec.ofNat 5 classes) s.station.time)).respond
        rq .ok .nothing) := by
  simp only [exec, execStartSurvey, asFin_val]
  exact congrArg Host.Outcome.next (if_pos h)

theorem exec_startSurvey_bad (rq : Req) {n classes : Nat} (h : 16 ≤ n ∨ 32 ≤ classes) (s : State) :
    exec (.startSurvey rq n classes) s = .next ((s.arrive (.startSurvey rq n classes)).respond rq .badArgument .nothing) := by
  refine congrArg Host.Outcome.next ?_
  rcases h with n16 | c32
  · simp only [asFin_eq_none.mpr n16]
    rfl
  · cases asFin 16 n with
    | none => rfl
    | some i => exact if_neg (Nat.not_lt.mpr c32)

theorem exec_stopSurvey_val (rq : Req) (i : Svc) (s : State) :
    exec (.stopSurvey rq i.val) s =
      .next (match s.meter[i].survey.stop s.station.time with
        | none => (s.arrive (.stopSurvey rq i.val)).respond rq .state .nothing
        | some v => ((s.arrive (.stopSurvey rq i.val)).setSurvey i v).respond rq .ok .nothing) := by
  simp only [exec, execStopSurvey, asFin_val]
  rfl

theorem State.setSurvey_self (s : State) (i : Svc) : s.setSurvey i s.meter[i].survey = s := by
  unfold State.setSurvey State.setMeter
  rw [Fin.getElem_fin, Vector.set_getElem_self]

/-- Settles O28: START SURVEY begins anew whatever the state; STOP SURVEY by the state of the survey. -/
theorem surveysStartAndStop : Obligations.SurveysStartAndStop := by
  intro s rq n classes c e stamp
  refine ⟨fun bad => exec_startSurvey_bad rq bad s, fun n16 => ?_, ?_⟩
  · refine congrArg Host.Outcome.next ?_
    simp only [asFin_eq_none.mpr n16]
    rfl
  · rintro i rfl x with'
    have run := exec_stopSurvey_val rq i s
    refine ⟨fun fits => ?_, fun idle => ?_, fun active => ?_, fun stopped => ?_⟩
    · rw [exec_startSurvey_val rq i fits, Survey.started, Survey.stamp_eq]
      rfl
    · rw [run, Survey.stop, show s.meter[i].survey.state = _ from idle]
    · rw [run, Survey.stop, show s.meter[i].survey.state = _ from active, Survey.stamp_eq]
      rfl
    · rw [run, Survey.stop, show s.meter[i].survey.state = _ from stopped]
      exact congrArg (fun u : State => Host.Outcome.next (u.respond rq .ok .nothing)) ((s.arrive e).setSurvey_self i)

end Sys2Proof.Machine
end

section
/-!
The caption checker (chapter 5): what is due, what a settled checker looks like, packets and expiries, and the combination of results.
-/

namespace Sys2Proof.Machine

/-! ### What is due at the checker (R87, R91) -/

theorem CaptionSegment.finished_eq (g : CaptionSegment) : g.finished = decide (g.endMi = some (g.start + g.combined)) := by
  unfold finished
  cases g.endMi with
  | none => rfl
  | some e => simp only [Option.some_inj, eq_comm]

namespace CheckerSvc

/-- R87: a held result with the record and the entry that it is combined with, where both are known. -/
def matched (x : CheckerSvc) (r : MiResult) : Option (MiResult × Presence × CaptionSegment) :=
  match x.segments.find? (·.inst == r.inst), x.presence.find? (·.mi == r.mi) with
  | some g, some p => some (r, p, g)
  | _, _ => none

theorem due_eq_findSome? (x : CheckerSvc) : x.due = x.held.findSome? x.matched := rfl

variable (x : CheckerSvc) (svc : Svc) (profiles : Vector Profile 8)

theorem matched_eq_some_iff (q r : MiResult) (w : Presence) (g : CaptionSegment) :
    x.matched q = some (r, w, g) ↔
      q = r ∧ (x.presence.find? fun w => decide (w.mi = r.mi)) = some w ∧
        (x.segments.find? fun g => decide (g.inst = r.inst)) = some g := by
  have record : x.presence.find? (·.mi == q.mi) = x.presence.find? fun w => decide (w.mi = q.mi) :=
    congrArg (x.presence.find? ·) (funext fun _ => beq_eq_decide ..)
  have entry : x.segments.find? (·.inst == q.inst) = x.segments.find? fun g => decide (g.inst = q.inst) :=
    congrArg (x.segments.find? ·) (funext fun _ => beq_eq_decide ..)
  unfold matched
  rw [record, entry]
  split
  · next hg hp =>
    simp only [Option.some.injEq, Prod.mk.injEq]
    constructor
    · rintro ⟨rfl, rfl, rfl⟩
      exact ⟨rfl, hp, hg⟩
    · rintro ⟨rfl, hp', hg'⟩
      exact ⟨rfl, Option.some.inj (hp.symm.trans hp'), Option.some.inj (hg.symm.trans hg')⟩
  · next missing =>
    simp only [reduceCtorEq, false_iff]
    rintro ⟨rfl, hp, hg⟩
    exact missing g w hg hp

theorem matched_eq_none_iff (q : MiResult) :
    x.matched q = none ↔ (∀ w ∈ x.presence, w.mi ≠ q.mi) ∨ ∀ g ∈ x.segments, g.inst ≠ q.inst := by
  rw [Option.eq_none_iff_forall_ne_some]
  constructor
  · intro none
    cases record : x.presence.find? fun w => decide (w.mi = q.mi) with
    | none => exact .inl fun w hw => by simpa using List.find?_eq_none.mp record w hw
    | some w =>
      cases entry : x.segments.find? fun g => decide (g.inst = q.inst) with
      | none => exact .inr fun g hg => by simpa using List.find?_eq_none.mp entry g hg
      | some g => exact absurd ((x.matched_eq_some_iff q q w g).mpr ⟨rfl, record, entry⟩) (none _)
  · rintro missing ⟨r, w, g⟩ found
    obtain ⟨rfl, record, entry⟩ := (x.matched_eq_some_iff q r w g).mp found
    rcases missing with missing | missing
    · exact missing w (List.mem_of_find?_eq_some record) (by simpa using List.find?_some record)
    · exact missing g (List.mem_of_find?_eq_some entry) (by simpa using List.find?_some entry)

/-- R87: none is due exactly when no held result has both its record and its entry. -/
theorem due_eq_none_iff :
    x.due = none ↔ ∀ q ∈ x.held, (∀ w ∈ x.presence, w.mi ≠ q.mi) ∨ ∀ g ∈ x.segments, g.inst ≠ q.inst := by
  simp only [due_eq_findSome?, List.findSome?_eq_none_iff, matched_eq_none_iff]

/-- R87: the result that is due is the one held first of those with record and entry. -/
theorem due_eq_some_iff (r : MiResult) (w : Presence) (g : CaptionSegment) :
    x.due = some (r, w, g) ↔
      ∃ before after : List MiResult, x.held = before ++ r :: after ∧
        (∀ q ∈ before, (∀ w ∈ x.presence, w.mi ≠ q.mi) ∨ ∀ g ∈ x.segments, g.inst ≠ q.inst) ∧
        (x.presence.find? fun w => decide (w.mi = r.mi)) = some w ∧
        (x.segments.find? fun g => decide (g.inst = r.inst)) = some g := by
  simp only [due_eq_findSome?, List.findSome?_eq_some_iff, matched_eq_none_iff, matched_eq_some_iff]
  constructor
  · rintro ⟨before, q, after, held, ⟨rfl, record, entry⟩, first⟩
    exact ⟨before, after, held, first, record, entry⟩
  · rintro ⟨before, after, held, first, record, entry⟩
    exact ⟨before, r, after, held, ⟨rfl, record, entry⟩, first⟩

/-! ### Summaries (R91) -/

theorem sendSummaries_eq :
    x.sendSummaries svc =
      ({ x with segments := x.segments.filter fun g => !decide (g.endMi = some (g.start + g.combined)) },
        (x.segments.filter fun g => decide (g.endMi = some (g.start + g.combined))).map fun g =>
          .captionSummaryArrival svc g.inst g.summary) := by
  simp only [sendSummaries, CaptionSegment.finished_eq]

theorem sendSummaries_finished : ∀ g ∈ (x.sendSummaries svc).1.segments, g.finished = false := by
  intro g hg
  have := (List.mem_filter.mp hg).2
  exact Bool.not_eq_true' _ ▸ this

theorem sendSummaries_twice : (x.sendSummaries svc).1.sendSummaries svc = ((x.sendSummaries svc).1, []) := by
  have all := x.sendSummaries_finished svc
  have stay : (x.sendSummaries svc).1.segments.filter (fun g => !g.finished) = (x.sendSummaries svc).1.segments :=
    List.filter_eq_self.mpr fun g hg => by rw [all g hg]; rfl
  have go : (x.sendSummaries svc).1.segments.filter (·.finished) = [] :=
    List.filter_eq_nil_iff.mpr fun g hg => Bool.eq_false_iff.mp (all g hg)
  conv_lhs => rw [sendSummaries, stay, go]
  rfl

/-! ### What is due comes about (R87 to R89) -/

theorem combineDue_of_none (h : x.due = none) : x.combineDue svc profiles = (x, []) := by
  rw [combineDue, h]

/-- R87: the combination of a result, its record and its entry, before summaries. -/
def combined (svc : Svc) (profiles : Vector Profile 8) (r : MiResult) (w : Presence) (g : CaptionSegment) : CheckerSvc :=
  { x with
    held := x.held.erase r
    presence := x.presence.erase w
    segments := x.segments.map fun e => if e.inst = g.inst then (g.combine svc profiles[g.profile] r w).1 else e }

theorem combineDue_of_due {r : MiResult} {w : Presence} {g : CaptionSegment} (due : x.due = some (r, w, g)) :
    x.combineDue svc profiles =
      (((x.combined svc profiles r w g).sendSummaries svc).1,
        (g.combine svc profiles[g.profile] r w).2 ++ ((x.combined svc profiles r w g).sendSummaries svc).2) := by
  rw [combineDue, due]
  rfl

theorem mem_held_of_due {r : MiResult} {w : Presence} {g : CaptionSegment} (due : x.due = some (r, w, g)) : r ∈ x.held := by
  obtain ⟨before, after, held, _⟩ := (x.due_eq_some_iff r w g).mp due
  rw [held]
  exact List.mem_append_right before List.mem_cons_self

/-- The result that is combined leaves the list. -/
theorem combineDue_held_lt (due : x.due.isSome) : (x.combineDue svc profiles).1.held.length < x.held.length := by
  obtain ⟨⟨r, w, g⟩, due⟩ := Option.isSome_iff_exists.mp due
  have mem := x.mem_held_of_due due
  rw [x.combineDue_of_due svc profiles due]
  show (x.held.erase r).length < x.held.length
  rw [List.length_erase_of_mem mem]
  have := List.length_pos_of_mem mem
  omega

theorem combineDue_finished (due : x.due.isSome) : ∀ g ∈ (x.combineDue svc profiles).1.segments, g.finished = false := by
  obtain ⟨⟨r, w, g⟩, due⟩ := Option.isSome_iff_exists.mp due
  rw [x.combineDue_of_due svc profiles due]
  exact sendSummaries_finished _ svc

theorem due_eq_none_of_held (h : x.held.length = 0) : x.due = none := by
  rw [due_eq_none_iff, List.length_eq_zero_iff.mp h]
  nofun

theorem combineAll_of_none {n : Nat} (h : x.due = none) : combineAll svc profiles n x = (x, []) := by
  cases n with
  | zero => rfl
  | succ n => rw [combineAll, if_pos (by rw [h]; rfl)]

theorem combineAll_of_due {n : Nat} (h : x.due.isSome) :
    combineAll svc profiles (n + 1) x =
      ((combineAll svc profiles n (x.combineDue svc profiles).1).1,
        (x.combineDue svc profiles).2 ++ (combineAll svc profiles n (x.combineDue svc profiles).1).2) := by
  rw [combineAll, if_neg (by rw [Option.isNone_iff_eq_none]; exact Option.isSome_iff_ne_none.mp h)]

/-- As many rounds as there are held results are enough. -/
theorem combineAll_enough {n : Nat} (h : x.held.length ≤ n) :
    combineAll svc profiles n x = combineAll svc profiles x.held.length x := by
  induction n using Nat.strongRecOn generalizing x with | ind n ih =>
  cases due : x.due with
  | none => rw [combineAll_of_none x svc profiles due, combineAll_of_none x svc profiles due]
  | some d =>
    have some_due : x.due.isSome := by rw [due]; rfl
    have shorter := x.combineDue_held_lt svc profiles some_due
    obtain ⟨m, hm⟩ : ∃ m, x.held.length = m + 1 := ⟨x.held.length - 1, by omega⟩
    obtain ⟨k, rfl⟩ : ∃ k, n = k + 1 := ⟨n - 1, by omega⟩
    rw [hm, combineAll_of_due x svc profiles some_due, combineAll_of_due x svc profiles some_due,
      ih k (Nat.lt_succ_self k) (x.combineDue svc profiles).1 (by omega), ih m (by omega) (x.combineDue svc profiles).1 (by omega)]

theorem combineAll_due {n : Nat} (h : x.held.length ≤ n) : (combineAll svc profiles n x).1.due = none := by
  induction n generalizing x with
  | zero => exact x.due_eq_none_of_held (Nat.le_zero.mp h)
  | succ n ih =>
    cases due : x.due with
    | none => rwa [combineAll_of_none x svc profiles due]
    | some d =>
      have some_due : x.due.isSome := by rw [due]; rfl
      rw [combineAll_of_due x svc profiles some_due]
      exact ih _ (by have := x.combineDue_held_lt svc profiles some_due; omega)

theorem combineAll_finished (n : Nat) (h : ∀ g ∈ x.segments, g.finished = false) :
    ∀ g ∈ (combineAll svc profiles n x).1.segments, g.finished = false := by
  induction n generalizing x with
  | zero => exact h
  | succ n ih =>
    cases due : x.due with
    | none => rwa [combineAll_of_none x svc profiles due]
    | some d =>
      have some_due : x.due.isSome := by rw [due]; rfl
      rw [combineAll_of_due x svc profiles some_due]
      exact ih _ (x.combineDue_finished svc profiles some_due)

/-! ### A settled checker (R87, R91) -/

theorem settle_of_none (h : (x.sendSummaries svc).1.due = none) : x.settle svc profiles = x.sendSummaries svc := by
  rw [settle, combineAll_of_none _ svc profiles h, List.append_nil]

/-- One thing that is due comes about, and then the rest. -/
theorem settle_of_due {r : MiResult} {w : Presence} {g : CaptionSegment} (due : (x.sendSummaries svc).1.due = some (r, w, g)) :
    x.settle svc profiles =
      let a := x.sendSummaries svc
      let y := (a.1.combined svc profiles r w g).sendSummaries svc
      ((y.1.settle svc profiles).1,
        a.2 ++ (g.combine svc profiles[g.profile] r w).2 ++ y.2 ++ (y.1.settle svc profiles).2) := by
  have some_due : (x.sendSummaries svc).1.due.isSome := by rw [due]; rfl
  have shorter := (x.sendSummaries svc).1.combineDue_held_lt svc profiles some_due
  have length : (x.sendSummaries svc).1.held.length = x.held.length := rfl
  obtain ⟨m, hm⟩ : ∃ m, x.held.length = m + 1 := ⟨x.held.length - 1, by omega⟩
  have done := (x.sendSummaries svc).1.combineDue_of_due svc profiles due
  have again := sendSummaries_twice ((x.sendSummaries svc).1.combined svc profiles r w g) svc
  rw [done] at shorter
  rw [settle, hm, combineAll_of_due _ svc profiles some_due, done, combineAll_enough _ svc profiles (by omega)]
  simp only [settle, again, List.nil_append, List.append_assoc]

theorem settle_due : (x.settle svc profiles).1.due = none := combineAll_due _ svc profiles (Nat.le_refl x.held.length)

theorem settle_finished : ∀ g ∈ (x.settle svc profiles).1.segments, g.finished = false :=
  combineAll_finished _ svc profiles _ (x.sendSummaries_finished svc)

end CheckerSvc

/-! ### Results and their combination (R87 to R91) -/

theorem State.checkerDoes_nothing (s : State) (i : Svc) : s.checkerDoes i (s.checker[i], []) = s := by
  unfold State.checkerDoes State.setChecker
  rw [Fin.getElem_fin, Vector.set_getElem_self, State.send_nil]

namespace CaptionSegment

variable (g : CaptionSegment) (svc : Svc) (p : Profile) (r : MiResult) (w : Presence)

theorem combine_of_silent (h : (r.judged && r.audible) = false) : g.combine svc p r w = (g.tally r w, []) := by
  rw [combine, if_neg (Bool.eq_false_iff.mp h)]

theorem combine_of_present (h : (r.judged && r.audible) = true) (present : w.present = true) :
    g.combine svc p r w = ((g.tally r w).endRun, []) := by
  rw [combine, if_pos h, if_pos present]

theorem combine_of_gap (h : (r.judged && r.audible) = true) (absent : w.present = false) :
    g.combine svc p r w =
      if ((g.tally r w).extendRun r.mi).reachesLimit p then
        (((g.tally r w).extendRun r.mi).countRun, ((g.tally r w).extendRun r.mi).gapNotice svc r.mi p)
      else ((g.tally r w).extendRun r.mi, []) := by
  rw [combine, if_pos h, if_neg (Bool.eq_false_iff.mp absent)]

theorem reachesLimit_iff : g.reachesLimit p = true ↔ (∃ n, p.maxGap = some n ∧ n ≤ g.gapRun) ∧ g.gapCounted = false := by
  unfold reachesLimit
  cases p.maxGap <;> simp

/-- R87: the tallies are those of `tally`, whatever happens to the gap run. -/
theorem combine_tallies :
    let c := g.combine svc p r w
    let t := g.tally r w
    c.1.combined = t.combined ∧ c.1.judged = t.judged ∧ c.1.audible = t.audible ∧ c.1.covered = t.covered ∧ c.1.lost = t.lost := by
  unfold combine
  dsimp only
  split
  · split
    · exact ⟨rfl, rfl, rfl, rfl, rfl⟩
    · split <;> exact ⟨rfl, rfl, rfl, rfl, rfl⟩
  · exact ⟨rfl, rfl, rfl, rfl, rfl⟩

end CaptionSegment

theorem ite_add_one (b : Bool) (n : Nat) : (if b then n + 1 else n) = n + if b then 1 else 0 := by cases b <;> rfl

/-- Settles O31: a result is held, the one that is due is combined, and the tallies and the gap run of its entry follow. -/
theorem resultsAreCombinedIntoSegments : Obligations.ResultsAreCombinedIntoSegments := by
  refine ⟨fun s i r => ?_, fun g i p r w => ?_⟩
  · intro x p u done summaries
    have run : exec (.miResult i r) s = .next (u.checkerDoes i ((x.takeResult r).settle i p)) := rfl
    refine ⟨fun idle unknown => ?_, fun known => ?_, x.due_eq_none_iff, fun r w g => x.due_eq_some_iff r w g, fun none => ?_,
      fun r w g due => ?_, ?_⟩
    · rw [run, CheckerSvc.takeResult, if_pos ⟨idle, by simpa using unknown⟩]
    · rw [run, CheckerSvc.takeResult, if_neg]
      rintro ⟨idle, unknown⟩
      rcases known with acts | ⟨g, hg, inst⟩
      · exact acts idle
      · exact absurd inst (by simpa using List.all_eq_true.mp unknown g hg)
    · exact congrArg Host.Outcome.next ((congrArg (s.checkerDoes i) (x.combineDue_of_none i p none)).trans (s.checkerDoes_nothing i))
    · obtain ⟨before, after, held, first, record, entry⟩ := (x.due_eq_some_iff r w g).mp due
      refine ⟨x.mem_held_of_due due, List.mem_of_find?_eq_some record, List.mem_of_find?_eq_some entry,
        by simpa using List.find?_some record, by simpa using List.find?_some entry, ?_⟩
      show Host.Outcome.next (s.checkerDoes i (x.combineDue i p)) = _
      rw [x.combineDue_of_due i p due, CheckerSvc.sendSummaries_eq]
      rfl
    · exact congrArg (fun c => Host.Outcome.next (s.checkerDoes i c)) (x.sendSummaries_eq i)
  · intro c heard one
    obtain ⟨combined, judged, audible, covered, lost⟩ := g.combine_tallies i p r w
    refine ⟨combined, judged.trans (ite_add_one ..), audible.trans (ite_add_one ..), covered.trans (ite_add_one ..),
      lost.trans (ite_add_one ..), fun silent => ?_, fun h present => ?_, fun h absent => ?_⟩
    · rw [show c = _ from g.combine_of_silent i p r w silent]
      exact ⟨rfl, rfl, rfl, rfl, rfl, rfl⟩
    · rw [show c = _ from g.combine_of_present i p r w h present]
      exact ⟨rfl, rfl, rfl, rfl, rfl, rfl⟩
    · have limit := ((g.tally r w).extendRun r.mi).reachesLimit_iff p
      rw [show c = _ from g.combine_of_gap i p r w h absent]
      by_cases reached : ((g.tally r w).extendRun r.mi).reachesLimit p = true
      · rw [if_pos reached]
        refine ⟨rfl, rfl, rfl, fun _ _ => ⟨rfl, rfl, rfl⟩, fun before => ?_⟩
        obtain ⟨⟨n, hn, reach⟩, fresh⟩ := limit.mp reached
        rcases before with below | counted
        · exact absurd reach (Nat.not_le.mpr (below n hn))
        · exact absurd (counted.symm.trans fresh) Bool.noConfusion
      · rw [if_neg reached]
        exact ⟨rfl, rfl, rfl, fun some fresh => absurd (limit.mpr ⟨some, fresh⟩) reached, fun _ => ⟨rfl, rfl, rfl⟩⟩

/-! ### Packets and expiries (R75, R76, R78 to R82) -/

/-- R76: what makes a packet malformed. -/
theorem wellFormedPacket_iff (p : CaptionPacket) :
    wellFormedPacket p = true ↔
      ¬ ((p.kind ≠ 1 ∧ p.kind ≠ 2 ∧ p.kind ≠ 3) ∨ (16 ≤ p.row ∧ p.row ≠ 255) ∨ 42 < p.count ∨ (p.kind = 1 ∧ p.row = 255)) := by
  simp only [wellFormedPacket, kindText, kindErase, kindKeepalive, rowAll, Bool.and_eq_true, Bool.or_eq_true, Bool.not_eq_true',
    Bool.and_eq_false_iff, beq_iff_eq, beq_eq_false_iff_ne, decide_eq_true_eq]
  omega

theorem persistenceOf_eq (d : Option Nat) : persistenceOf d = d.map fun d => max 1 (min 600 d) :=
  congrArg (fun f => d.map f) (funext (clampNat_val (by decide)))

theorem exec_checkerCaptionPacket (i : Svc) (p : CaptionPacket) (s : State) :
    exec (.checkerCaptionPacket i p) s = .next ((s.arrive (.checkerCaptionPacket i p)).checkerDoes i (s.checker[i].takePacket i p)) := rfl

namespace CheckerSvc

variable {x : CheckerSvc} {p : CaptionPacket}

theorem takeRows_keepalive (h : p.kind = 3) : x.takeRows p = x := by
  rw [takeRows, if_neg (by rw [h]; decide), if_neg (by rw [h]; decide)]

theorem takeRows_eraseAll (h : p.kind = 2) (all : p.row = 255) : x.takeRows p = { x with rows := Vector.replicate 16 none } := by
  rw [takeRows, if_neg (by rw [h]; decide), if_pos (by rw [h]; rfl), takeErase, if_pos (show p.row = rowAll from all), clearRows]

theorem takeRows_clear {r : Fin 16} (row : p.row = r.val) (h : p.kind = 2 ∨ (p.kind = 1 ∧ p.count = 0)) :
    x.takeRows p = { x with rows := x.rows.set r none } := by
  rcases h with h | ⟨h, empty⟩
  · have one : p.row ≠ rowAll := by
      have := r.isLt
      unfold rowAll
      omega
    rw [takeRows, if_neg (by rw [h]; decide), if_pos (by rw [h]; rfl), takeErase, if_neg one, row, asFin_val]
  · rw [takeRows, if_pos (by rw [h]; rfl), takeText, row, asFin_val]
    exact if_pos empty

theorem takeRows_text {r : Fin 16} (row : p.row = r.val) (h : p.kind = 1) (some : p.count ≠ 0) :
    x.takeRows p =
      { x with
        rows := x.rows.set r (Option.some (RowText.mk (p.duration.map fun d => max 1 (min 600 d)) p.count))
        textSeen := x.textSeen || x.record.rowMask.getLsbD r.val } := by
  rw [takeRows, if_pos (by rw [h]; rfl), takeText, row, asFin_val, persistenceOf_eq]
  exact if_neg some

/-- R82: a row at persistence 0 is cleared, and no other. -/
theorem expireRow_of_zero {o : Option RowText} {n : Nat} (h : o = some ⟨some 0, n⟩) : expireRow o = none := by
  rw [h, expireRow]

theorem expireRow_of_ne {o : Option RowText} (h : ∀ n, o ≠ some ⟨some 0, n⟩) : expireRow o = o := by
  unfold expireRow
  split
  · next n => exact absurd rfl (h n)
  · rfl

theorem expireStream_of_still (h : x.timer ≠ 0 ∨ x.stream = .lostFromLive ∨ x.stream = .lostFromWaiting) (svc : Svc) :
    x.expireStream svc = (x, []) := by
  unfold expireStream
  rcases h with h | h | h
  · exact if_neg h
  · rw [h, ite_self]
  · rw [h, ite_self]

theorem expireStream_waiting (zero : x.timer = 0) (h : x.stream = .waiting) (svc : Svc) :
    x.expireStream svc = ({ x with stream := .lostFromWaiting, rows := Vector.replicate 16 none }, []) := by
  rw [expireStream, if_pos zero, h]
  rfl

theorem expireStream_live (zero : x.timer = 0) (h : x.stream = .live) (svc : Svc) :
    x.expireStream svc =
      ({ x with stream := .lostFromLive, rows := Vector.replicate 16 none },
        [increment .captionStreamLosses svc,
          notice .captionStreamLost (some svc) x.lastTick
            (.captionStream x.record.captionLane.val x.record.captionStream.val)]) := by
  rw [expireStream, if_pos zero, h]
  rfl

end CheckerSvc

theorem exec_captionStreamExpiry_of_acting {s : State} {i : Svc} (h : s.checker[i].run ≠ .idle) :
    exec (.captionStreamExpiry i) s = .next (s.checkerDoes i (s.checker[i].expireStream i)) :=
  congrArg Host.Outcome.next (if_neg h)

theorem State.setChecker_self (s : State) (i : Svc) : s.setChecker i s.checker[i] = s := by
  unfold State.setChecker
  rw [Fin.getElem_fin, Vector.set_getElem_self]

/-- Settles O30: a packet by its kind and row, and the two expiries by what stands at 0. -/
theorem captionStreamAndRowsFollowThePackets : Obligations.CaptionStreamAndRowsFollowThePackets := by
  refine ⟨fun s i p => ?_, fun s i r => ?_⟩
  · intro c u x malformed alive sent gives
    have run : exec c s = .next (u.checkerDoes i (x.takePacket i p)) := rfl
    refine ⟨fun other => ?_, fun acts stream => ?_⟩
    · rw [run, CheckerSvc.takePacket, if_pos other]
      exact congrArg Host.Outcome.next (u.checkerDoes_nothing i)
    · have mine : ¬ (x.run = .idle ∨ p.stream ≠ x.record.captionStream.val) := not_or.mpr ⟨acts, not_not.mpr stream⟩
      refine ⟨fun bad => ?_, fun good => ?_⟩
      · have : ¬ wellFormedPacket p = true := fun well => (wellFormedPacket_iff p).mp well bad
        show exec c s = _
        rw [run, CheckerSvc.takePacket, if_neg mine, if_neg this]
        rfl
      · have taken (y : CheckerSvc) (rows : alive.takeRows p = y) : gives y sent := by
          show exec c s = _
          rw [run, CheckerSvc.takePacket, if_neg mine, if_pos ((wellFormedPacket_iff p).mpr good), ← rows]
          rfl
        exact ⟨fun keep => taken _ (CheckerSvc.takeRows_keepalive keep), fun erase all => taken _ (CheckerSvc.takeRows_eraseAll erase all),
          fun r row => ⟨fun clear => taken _ (CheckerSvc.takeRows_clear row clear),
            fun text some => taken _ (CheckerSvc.takeRows_text row text some)⟩⟩
  · intro x lost
    refine ⟨fun n zero => ?_, fun other => ?_, fun still => ?_, fun acts zero waiting => ?_, fun acts zero live => ?_⟩
    · exact congrArg (fun o => Host.Outcome.next (s.setChecker i { x with rows := x.rows.set r o })) (CheckerSvc.expireRow_of_zero zero)
    · refine congrArg Host.Outcome.next ((congrArg (fun o => s.setChecker i { x with rows := x.rows.set r o })
        (CheckerSvc.expireRow_of_ne other)).trans ?_)
      simp only [Fin.getElem_fin, Vector.set_getElem_self]
      exact s.setChecker_self i
    · by_cases idle : x.run = .idle
      · exact congrArg Host.Outcome.next (if_pos idle)
      · rw [exec_captionStreamExpiry_of_acting idle, CheckerSvc.expireStream_of_still (still.resolve_left idle) i]
        exact congrArg Host.Outcome.next (s.checkerDoes_nothing i)
    · rw [exec_captionStreamExpiry_of_acting acts, CheckerSvc.expireStream_waiting zero waiting i]
      exact congrArg Host.Outcome.next (State.send_nil _)
    · rw [exec_captionStreamExpiry_of_acting acts, CheckerSvc.expireStream_live zero live i]
      rfl

end Sys2Proof.Machine
end

section
/-!
Segment messages and MI ticks at the meter and the checker (R39 to R42, R77, R81 to R84, R90).
-/

namespace Sys2Proof.Machine

/-! ### Segment opened and segment closed (R39, R41, R77, R84, R90) -/

theorem exec_meterSegmentOpened (i : Svc) (o : SegOpened) (s : State) :
    exec (.meterSegmentOpened i o) s =
      .next ((s.arrive (.meterSegmentOpened i o)).meterDoes i ((s.meter[i].segmentOpened o).settle i)) := rfl

theorem exec_meterSegmentClosed (i : Svc) (e : SegClosed) (s : State) :
    exec (.meterSegmentClosed i e) s =
      .next ((s.arrive (.meterSegmentClosed i e)).meterDoes i ((s.meter[i].segmentClosed e).settle i)) := rfl

theorem exec_checkerSegmentOpened (i : Svc) (o : SegOpened) (s : State) :
    exec (.checkerSegmentOpened i o) s =
      .next ((s.arrive (.checkerSegmentOpened i o)).checkerDoes i
        ((s.checker[i].segmentOpened o).settle i s.compliance.profiles)) := rfl

namespace MeterSvc

variable {x : MeterSvc}

theorem segmentOpened_idle (h : x.run = .idle) (o : SegOpened) : x.segmentOpened o = x := by rw [segmentOpened, h]

theorem segmentOpened_waiting (h : x.run = .waiting) (o : SegOpened) :
    x.segmentOpened o =
      { x with
        run := .measuring, runStart := some o.start, segments := x.segments ++ [MeterSegment.ofOpened o]
        input := x.input.filter fun h => decide (o.start ≤ h.mi) } := by rw [segmentOpened, h]

theorem segmentOpened_measuring (h : x.run = .measuring) (o : SegOpened) :
    x.segmentOpened o = { x with segments := x.segments ++ [MeterSegment.ofOpened o] } := by
  unfold segmentOpened
  rw [h]

end MeterSvc

namespace CheckerSvc

variable {x : CheckerSvc}

theorem segmentOpened_idle (h : x.run = .idle) (o : SegOpened) : x.segmentOpened o = x := by rw [segmentOpened, h]

theorem segmentOpened_waiting (h : x.run = .waiting) (o : SegOpened) :
    x.segmentOpened o =
      { x with
        run := .measuring, runStart := some o.start, segments := x.segments ++ [CaptionSegment.ofOpened o]
        presence := x.presence.filter fun p => decide (o.start ≤ p.mi) || x.covers p.mi
        held := x.held.filter fun r => !precedes r.inst o.inst } := by rw [segmentOpened, h]

theorem segmentOpened_measuring (h : x.run = .measuring) (o : SegOpened) :
    x.segmentOpened o = { x with segments := x.segments ++ [CaptionSegment.ofOpened o] } := by
  unfold segmentOpened
  rw [h]

end CheckerSvc

/-- Settles O21: the segment list grows or an entry gets its end, by run state; then what is due comes about. -/
theorem segmentMessagesAreTaken : Obligations.SegmentMessagesAreTaken := by
  intro s i o e m k p um uk vm vk newM newK
  refine ⟨fun idle => ?_, fun waiting => ?_, fun measuring => ?_, fun other => ?_, fun measuring => ?_, fun idle => ?_,
    fun waiting => ?_, fun measuring => ?_, rfl⟩
  · rw [exec_meterSegmentOpened, MeterSvc.segmentOpened_idle idle]
  · rw [exec_meterSegmentOpened, MeterSvc.segmentOpened_waiting waiting]
    rfl
  · rw [exec_meterSegmentOpened, MeterSvc.segmentOpened_measuring measuring]
    rfl
  · rw [exec_meterSegmentClosed, MeterSvc.segmentClosed, if_neg other]
  · rw [exec_meterSegmentClosed, MeterSvc.segmentClosed, if_pos measuring]
  · rw [exec_checkerSegmentOpened, CheckerSvc.segmentOpened_idle idle]
  · rw [exec_checkerSegmentOpened, CheckerSvc.segmentOpened_waiting waiting]
    rfl
  · rw [exec_checkerSegmentOpened, CheckerSvc.segmentOpened_measuring measuring]
    rfl

/-! ### MI ticks (R40, R42, R81 to R83) -/

/-- A fold in which every service acts on its own part of the state and sends messages: the messages stand behind one another, and
nothing else changes. -/
theorem State.foldl_meterDoes (g : MeterSvc → Svc → MeterSvc × List Instr) {l : List Svc} (nodup : l.Nodup) (s : State) :
    l.foldl (fun x i => x.meterDoes i (g x.meter[i] i)) s =
      { s with
        meter := (l.foldl (fun x i => x.meterDoes i (g x.meter[i] i)) s).meter
        inFlight := s.inFlight ++ l.flatMap fun i => (g s.meter[i] i).2 } := by
  induction l generalizing s with
  | nil => simp
  | cons i l ih =>
    obtain ⟨fresh, nodup⟩ := List.nodup_cons.mp nodup
    have others : (l.flatMap fun j => (g (s.meterDoes i (g s.meter[i] i)).meter[j] j).2) = l.flatMap fun j => (g s.meter[j] j).2 :=
      List.flatMap_congr fun j hj => by
        have apart : (i : Nat) ≠ j := fun e => fresh (Fin.ext e ▸ hj)
        simp [State.meterDoes, apart]
    rw [List.foldl_cons, ih nodup, others, List.flatMap_cons, ← List.append_assoc]
    rfl

theorem State.foldl_checkerDoes (g : CheckerSvc → Svc → Vector Profile 8 → CheckerSvc × List Instr) {l : List Svc} (nodup : l.Nodup)
    (s : State) :
    l.foldl (fun x i => x.checkerDoes i (g x.checker[i] i x.compliance.profiles)) s =
      { s with
        checker := (l.foldl (fun x i => x.checkerDoes i (g x.checker[i] i x.compliance.profiles)) s).checker
        inFlight := s.inFlight ++ l.flatMap fun i => (g s.checker[i] i s.compliance.profiles).2 } := by
  induction l generalizing s with
  | nil => simp
  | cons i l ih =>
    obtain ⟨fresh, nodup⟩ := List.nodup_cons.mp nodup
    have others : (l.flatMap fun j => (g (s.checkerDoes i (g s.checker[i] i s.compliance.profiles)).checker[j] j
        (s.checkerDoes i (g s.checker[i] i s.compliance.profiles)).compliance.profiles).2) =
          l.flatMap fun j => (g s.checker[j] j s.compliance.profiles).2 :=
      List.flatMap_congr fun j hj => by
        have apart : (i : Nat) ≠ j := fun e => fresh (Fin.ext e ▸ hj)
        simp [State.checkerDoes, apart]
    rw [List.foldl_cons, ih nodup, others, List.flatMap_cons, ← List.append_assoc]
    rfl

theorem vector_eq_ofFn {α : Type} {n : Nat} {v : Vector α n} {f : Fin n → α} (h : ∀ i : Fin n, v[i] = f i) : v = Vector.ofFn f := by
  ext k hk
  rw [Vector.getElem_ofFn]
  exact h ⟨k, hk⟩

/-- R40: a tick taken by one meter, the end-tick mark as a disjunction. -/
theorem MeterSvc.takeTick_eq (x : MeterSvc) (t : Mi) :
    x.takeTick t =
      if x.run = .idle then x
      else
        { x with
          lastTick := some t
          input := x.input.map fun h => { h with endTick := h.endTick || decide (h.mi < t) } } := by
  have mark (h : HeldMi) : (if h.mi < t then { h with endTick := true } else h) = { h with endTick := h.endTick || decide (h.mi < t) } := by
    split
    · next below => simp [below]
    · next above => simp [above]
  simp only [takeTick, mark]

theorem exec_meterMiTick (t : Mi) (s : State) :
    exec (.meterMiTick t) s =
      .next { s with
        meter := Vector.ofFn fun i : Svc => ((s.meter[i].takeTick t).settle i).1
        inFlight := s.inFlight.erase (.meterMiTick t) ++ (List.finRange 16).flatMap fun i : Svc => ((s.meter[i].takeTick t).settle i).2 } := by
  have ticked := vector_eq_ofFn ((s.arrive (.meterMiTick t)).foldl_meterTick t)
  refine congrArg Host.Outcome.next
    ((State.foldl_meterDoes (fun x i => (x.takeTick t).settle i) allSvcs_nodup (s.arrive (.meterMiTick t))).trans ?_)
  rw [ticked]
  rfl

theorem exec_checkerMiTick (t : Mi) (s : State) :
    exec (.checkerMiTick t) s =
      .next { s with
        checker := Vector.ofFn fun i : Svc => (s.checker[i].takeTick i s.compliance.profiles t).1
        inFlight := s.inFlight.erase (.checkerMiTick t)
          ++ (List.finRange 16).flatMap fun i : Svc => (s.checker[i].takeTick i s.compliance.profiles t).2 } := by
  have ticked := vector_eq_ofFn ((s.arrive (.checkerMiTick t)).foldl_checkerTick t)
  refine congrArg Host.Outcome.next
    ((State.foldl_checkerDoes (fun x i p => x.takeTick i p t) allSvcs_nodup (s.arrive (.checkerMiTick t))).trans ?_)
  rw [ticked]
  rfl

namespace CheckerSvc

/-- R83: the presence of an MI evaluated now, as the statements say it. -/
theorem presentNow_eq (x : CheckerSvc) :
    x.presentNow =
      (decide (x.stream = .live) && (x.record.rowMask != 0) &&
        (x.textSeen || (List.finRange 16).any fun r : Fin 16 => x.record.rowMask.getLsbD r.val && x.rows[r].isSome)) := by
  rw [presentNow, beq_eq_decide]

theorem isLost_eq (x : CheckerSvc) : x.isLost = decide (x.stream = .lostFromLive ∨ x.stream = .lostFromWaiting) := by
  rw [isLost, beq_eq_decide, beq_eq_decide, Bool.decide_or]

/-- R82: a row after a tick, as the statements say it. -/
theorem expireRow_countRow (o : Option RowText) :
    expireRow (countRow o) = match o with
      | none => none
      | some ⟨none, n⟩ => some ⟨none, n⟩
      | some ⟨some k, n⟩ => if k ≤ 1 then none else some ⟨some (k - 1), n⟩ := by
  match o with
  | none => rfl
  | some ⟨none, n⟩ => rfl
  | some ⟨some 0, n⟩ => rfl
  | some ⟨some 1, n⟩ => rfl
  | some ⟨some (k + 2), n⟩ => exact (if_neg (by omega)).symm

/-- R81 to R83: a tick taken by one checker, step by step. -/
theorem takeTick_of_acting {x : CheckerSvc} (h : x.run ≠ .idle) (svc : Svc) (profiles : Vector Profile 8) (t : Mi) :
    x.takeTick svc profiles t =
      let c := (x.evaluate (miPrev t)).settle svc profiles
      let y : CheckerSvc :=
        { c.1 with
          textSeen := false, lastTick := some t, rows := Vector.ofFn fun r : Fin 16 => expireRow (countRow c.1.rows[r])
          timer := if c.1.isLost then c.1.timer else c.1.timer - 1 }
      ((y.expireStream svc).1, c.2 ++ (y.expireStream svc).2) := by
  have counted (y : CheckerSvc) :
      y.countRows.countTimer =
        { y with
          rows := Vector.ofFn fun r : Fin 16 => expireRow (countRow y.rows[r])
          timer := if y.isLost then y.timer else y.timer - 1 } := by
    have lost : y.countRows.isLost = y.isLost := rfl
    rw [countTimer, lost]
    cases y.isLost <;> rfl
  rw [takeTick, if_neg h]
  dsimp only
  rw [counted]
  rfl

end CheckerSvc

/-- Settles O24: a tick is every service's own, at the meter and at the checker. -/
theorem miTicksArePerService : Obligations.MiTicksArePerService := by
  refine ⟨fun s t => ?_, fun s t => ?_⟩
  · rw [exec_meterMiTick]
    simp only [MeterSvc.takeTick_eq]
  · intro p present lost counted ticked
    have each (i : Svc) : s.checker[i].takeTick i p t = ticked i := by
      simp only [ticked]
      split
      · next idle => rw [CheckerSvc.takeTick, if_pos idle]
      · next acts =>
        rw [CheckerSvc.takeTick_of_acting acts, CheckerSvc.evaluate, CheckerSvc.presentNow_eq, CheckerSvc.isLost_eq]
        simp only [CheckerSvc.isLost_eq, CheckerSvc.expireRow_countRow]
        rfl
    rw [exec_checkerMiTick]
    simp only [show s.compliance.profiles = p from rfl, each]

end Sys2Proof.Machine
end

section
/-!
The recorder (7.2 to 7.4): what each of its operations does to the service's state, and that the boundaries which have been passed
come to an end.
-/

namespace Sys2Proof.Machine

namespace Work

variable {w : Work} (a : Around)

/-! ### The recording state (R129) -/

/-- R129: what a change of the recording state sends. -/
def recordingSent (w : Work) (a : Around) (state : Recording) (m : Mi) : List Instr :=
  if state = w.x.state.getD .recording then []
  else
    .recordingStateChanged a.svc state m (w.x.runInst.getD 0)
      :: (if state = .notRecording then [notice .recordingGap (some a.svc) (some m) (.priority w.x.record.priority.val)] else [])

theorem setRecording_eq (w : Work) (state : Recording) (m : Mi) :
    w.setRecording a state m = { w with x := { w.x with state := some state }, out := w.out ++ w.recordingSent a state m } := by
  unfold setRecording recordingSent
  dsimp only
  split
  · rw [List.append_nil]
  · rfl

theorem recordingSent_recording (w : Work) (m : Mi) :
    w.recordingSent a .recording m =
      if w.x.state = some .notRecording then [.recordingStateChanged a.svc .recording m (w.x.runInst.getD 0)] else [] := by
  unfold recordingSent
  match w.x.state with
  | none | some .recording | some .notRecording => rfl

theorem recordingSent_notRecording (w : Work) (m : Mi) :
    w.recordingSent a .notRecording m =
      if w.x.state = some .notRecording then []
      else
        [.recordingStateChanged a.svc .notRecording m (w.x.runInst.getD 0),
          notice .recordingGap (some a.svc) (some m) (.priority w.x.record.priority.val)] := by
  unfold recordingSent
  match w.x.state with
  | none | some .recording | some .notRecording => rfl

/-! ### The opening of a span (R126 to R130) -/

/-- R130: a new slot, its keep set and its recorded part written out. -/
theorem newSlot_eq {run : Mi} (h : w.x.runStart = some run) (b : Mi) :
    w.newSlot a b =
      { state := .filling, svc := a.svc, start := b
        keepUsed := if w.store.backlog = .normal then .normal else .reduced
        sealNo := none, holdCount := holdsOver a.holds a.svc b, length := 4096 + 384000, cutShort := false, fillFrames := false
        chunk :=
          { audio := Vector.replicate 20 [], frames := [], packets := [], overflow := Vector.replicate 20 0, absent := 0
            first := max b run, endMi := max b run, segments := [], more := false
            keep := if w.store.backlog = .normal then w.x.record.normalKeep else w.x.record.reducedKeep } } := by
  unfold newSlot
  rw [h]
  cases w.store.backlog <;> rfl

/-- The span that opens is the one asked for, RECORDING in a slot and NOT_RECORDING without one; nothing else of the service's state
changes. -/
theorem openSpan_x (w : Work) (b m : Mi) :
    ∃ slot : Option Nat, (w.openSpan a b m).x =
      { w.x with span := some ⟨b, slot, 0⟩, state := some (if slot = none then .notRecording else .recording) } := by
  unfold openSpan
  split
  · next n _ => exact ⟨some n, by rw [setRecording_eq]; rfl⟩
  · next n _ _ => exact ⟨some n, by rw [setRecording_eq]; rfl⟩
  · next n _ _ => exact ⟨some n, by rw [setRecording_eq]; rfl⟩
  · exact ⟨none, by rw [setRecording_eq]; rfl⟩

/-! ### The end of a span -/

theorem endChunk_x (w : Work) (n : Nat) (s : Slot) (e : Mi) (cut : Bool) :
    ∃ onAir state, (w.endChunk a n s e cut).x = { w.x with onAir := onAir, state := state } := by
  unfold endChunk
  split
  · exact ⟨w.x.onAir, some .notRecording, by rw [endAsGap, setRecording_eq]; rfl⟩
  · exact ⟨_, w.x.state, rfl⟩

theorem endSpan_x (w : Work) (p : Span) : ∃ onAir state, (w.endSpan a p).x = { w.x with onAir := onAir, state := state } := by
  unfold endSpan
  split
  · exact ⟨w.x.onAir, w.x.state, rfl⟩
  · split
    · exact ⟨w.x.onAir, w.x.state, rfl⟩
    · exact endChunk_x a w ..

/-! ### Input sorted by its MI (R124) -/

/-- R124: what sorting at most `count` items against the span `p` makes of the service's state: some are held again, and only an
item that is not can bring a judgment. -/
def Sorts (p : Span) (x y : RecorderSvc) (count : Nat) : Prop :=
  ∃ q held, y = { x with span := some q, held := x.held ++ held } ∧ q.start = p.start ∧ q.slot = p.slot ∧
    (q.judged = p.judged ∨ held.length < count) ∧ held.length ≤ count

section
variable {p : Span} (span : w.x.span = some p) {k : HeldItem}
include span

theorem sort_below (h : k.mi < p.start) : w.sort k = w := by
  rw [sort, span]
  exact if_pos h

theorem sort_later (h : p.start + 20 ≤ k.mi) : w.sort k = { w with x := { w.x with held := w.x.held ++ [k] } } := by
  have here : ¬ k.mi < p.start := Nat.not_lt.mpr (Nat.le_trans (Nat.le_add_right ..) h)
  have within : ¬ k.mi < p.start + spanMis := Nat.not_lt.mpr h
  rw [sort, span]
  dsimp only
  rw [if_neg here, if_neg within]

/-- R124: an item of the current span is applied to its chunk, and its judgment is noted. -/
theorem sort_within (o : Fin 20) (h : k.mi = p.start + o.val) :
    w.sort k =
      { w with
        x := { w.x with span := some { p with judged := judgedAfter p o k.item } }
        store := match p.slot with
          | none => w.store
          | some n => w.store.update n fun s => { s with chunk := applyTo w.x.record s.chunk k.mi o k.item } } := by
  have offset : asFin 20 (k.mi - p.start) = some o := asFin_eq_some.mpr (by rw [h, Nat.add_sub_cancel_left])
  have here : ¬ k.mi < p.start := by
    rw [h]
    exact Nat.not_lt.mpr (Nat.le_add_right ..)
  have within : k.mi < p.start + spanMis := by
    rw [h]
    exact Nat.add_lt_add_left o.isLt _
  rw [sort, span]
  dsimp only
  rw [if_neg here, if_pos within, applyItem, offset] <;> rfl

/-- The three places an item can have against the current span. -/
theorem sort_cases (P : Work → Prop) (below : k.mi < p.start → P w)
    (later : p.start + 20 ≤ k.mi → P { w with x := { w.x with held := w.x.held ++ [k] } })
    (within : ∀ (o : Fin 20) (store : Store), k.mi = p.start + o.val →
      P { w with x := { w.x with span := some { p with judged := judgedAfter p o k.item } }, store := store }) : P (w.sort k) := by
  by_cases h : k.mi < p.start
  · rw [sort_below span h]
    exact below h
  · by_cases h' : p.start + 20 ≤ k.mi
    · rw [sort_later span h']
      exact later h'
    · have offset : k.mi - p.start < 20 := Nat.sub_lt_left_of_lt_add (Nat.not_lt.mp h) (Nat.not_le.mp h')
      have at_o : k.mi = p.start + (⟨k.mi - p.start, offset⟩ : Fin 20).val := (Nat.add_sub_of_le (Nat.not_lt.mp h)).symm
      rw [sort_within span ⟨_, offset⟩ at_o]
      exact within ⟨_, offset⟩ _ at_o

theorem foldl_sort_x (l : List HeldItem) : Sorts p w.x (l.foldl sort w).x l.length := by
  induction l generalizing w p with
  | nil =>
    refine ⟨p, [], ?_, rfl, rfl, .inl rfl, Nat.le_refl 0⟩
    rw [← span, List.append_nil]
    rfl
  | cons k l ih =>
    rw [List.foldl_cons]
    refine sort_cases span (k := k) (fun v => Sorts p w.x (l.foldl sort v).x (l.length + 1)) (fun _ => ?_) (fun _ => ?_)
      (fun o store _ => ?_)
    · obtain ⟨q, held, x, start, slot, _, le⟩ := ih span
      exact ⟨q, held, x, start, slot, .inr (Nat.lt_succ_of_le le), Nat.le_succ_of_le le⟩
    · obtain ⟨q, held, x, start, slot, judged, le⟩ := ih (w := { w with x := { w.x with held := w.x.held ++ [k] } }) span
      refine ⟨q, k :: held, ?_, start, slot, judged.imp_right Nat.succ_lt_succ, Nat.succ_le_succ le⟩
      rw [x]
      exact congrArg (fun h => { w.x with span := some q, held := h }) (List.append_cons ..).symm
    · obtain ⟨q, held, x, start, slot, _, le⟩ :=
        ih (w := { w with x := { w.x with span := some { p with judged := judgedAfter p o k.item } }, store := store }) rfl
      exact ⟨q, held, x, start, slot, .inr (Nat.lt_succ_of_le le), Nat.le_succ_of_le le⟩

end

theorem foldl_sort_out (w : Work) (l : List HeldItem) : (l.foldl sort w).out = w.out := by
  induction l generalizing w with
  | nil => rfl
  | cons k l ih =>
    rw [List.foldl_cons, ih]
    unfold sort
    split
    · rfl
    · split
      · rfl
      · split
        · unfold applyItem
          split <;> rfl
        · rfl

/-! ### Boundaries (R123) -/

theorem passed_eq_some_iff (w : Work) (p : Span) :
    w.passed = some p ↔
      w.x.run = .active ∧ w.x.span = some p ∧ p.judged.getLsbD 19 = true ∧ ∃ t, w.x.lastTick = some t ∧ p.start + 20 ≤ t := by
  constructor
  · intro h
    obtain ⟨run, span⟩ := passed_eq_some h
    unfold passed at h
    rw [run, span] at h
    cases tick : w.x.lastTick with
    | none =>
      rw [tick] at h
      cases h
    | some t =>
      rw [tick] at h
      obtain ⟨late, judged⟩ : p.start + spanMis ≤ t ∧ p.judged.getLsbD 19 = true := by
        by_contra not
        exact nomatch (if_neg not).symm.trans h
      exact ⟨run, span, judged, t, rfl, late⟩
  · rintro ⟨run, span, judged, t, tick, late⟩
    unfold passed
    rw [run, span, tick]
    exact if_pos ⟨late, judged⟩

theorem passed_eq_none_of_run (h : w.x.run ≠ .active) : w.passed = none :=
  Option.eq_none_iff_forall_ne_some.mpr fun _ e => h (passed_eq_some e).1

theorem passed_eq_none_of_span (h : w.x.span = none) : w.passed = none :=
  Option.eq_none_iff_forall_ne_some.mpr fun _ e => nomatch h.symm.trans (passed_eq_some e).2

/-- A span whose last MI has no judgment yet has its boundary ahead. -/
theorem passed_eq_none_of_judged {p : Span} (span : w.x.span = some p) (h : p.judged.getLsbD 19 = false) : w.passed = none :=
  Option.eq_none_iff_forall_ne_some.mpr fun q e => by
    obtain ⟨_, there, judged, _⟩ := (w.passed_eq_some_iff q).mp e
    obtain rfl := Option.some.inj (span.symm.trans there)
    exact nomatch h.symm.trans judged

theorem boundary_of_passed {p : Span} (h : w.passed = some p) :
    w.boundary a = (((w.endSpan a p).testBacklog a).openSpan a (p.start + 20) (p.start + 20)).sortHeld := by
  rw [boundary, h]
  rfl

theorem boundary_of_none (h : w.passed = none) : w.boundary a = w := by rw [boundary, h]

/-- What a boundary leaves of the service's state: the next span, in its state, with what of the held input was taken; its last MI
is judged only if an item was taken. -/
theorem boundary_x {p : Span} (h : w.passed = some p) :
    ∃ q onAir held, (w.boundary a).x =
        { w.x with
          span := some q, onAir := onAir, held := held
          state := some (if q.slot = none then .notRecording else .recording) } ∧
      q.start = p.start + 20 ∧ (q.judged = 0 ∨ held.length < w.x.held.length) ∧ held.length ≤ w.x.held.length := by
  obtain ⟨onAir, state, ended⟩ := endSpan_x a w p
  obtain ⟨slot, opened⟩ := openSpan_x a ((w.endSpan a p).testBacklog a) (p.start + 20) (p.start + 20)
  have same : ((w.endSpan a p).testBacklog a).x = { w.x with onAir := onAir, state := state } := ended
  rw [same] at opened
  rw [boundary_of_passed a h, sortHeld]
  obtain ⟨q, held, x, start, at_slot, judged, le⟩ := foldl_sort_x
    (w := { ((w.endSpan a p).testBacklog a).openSpan a (p.start + 20) (p.start + 20) with
      x := { (((w.endSpan a p).testBacklog a).openSpan a (p.start + 20) (p.start + 20)).x with held := [] } })
    (p := ⟨p.start + 20, slot, 0⟩) (by rw [opened]) (((w.endSpan a p).testBacklog a).openSpan a (p.start + 20) (p.start + 20)).x.held
  have length : (((w.endSpan a p).testBacklog a).openSpan a (p.start + 20) (p.start + 20)).x.held = w.x.held := by rw [opened]
  refine ⟨q, onAir, held, ?_, start, ?_, ?_⟩
  · rw [x, at_slot, opened]
    rfl
  · rwa [length] at judged
  · rwa [length] at le

/-- The rounds that the boundaries of a service can still take. -/
def rounds (w : Work) : Nat := if w.passed = none then 0 else w.x.held.length + 1

theorem rounds_le (w : Work) : w.rounds ≤ w.x.held.length + 1 := by
  unfold rounds
  split
  · exact Nat.zero_le _
  · exact Nat.le_refl _

/-- A boundary leaves one round less: the next can be passed only with the judgment of a held item. -/
theorem boundary_rounds_lt (h : w.passed ≠ none) : (w.boundary a).rounds < w.rounds := by
  obtain ⟨p, passed⟩ := Option.ne_none_iff_exists'.mp h
  obtain ⟨q, onAir, held, x, start, judged, le⟩ := boundary_x a passed
  have before : w.rounds = w.x.held.length + 1 := if_neg h
  have after : (w.boundary a).x.held = held := by rw [x]
  rw [before]
  rcases judged with zero | fewer
  · have none : (w.boundary a).passed = none := passed_eq_none_of_judged (p := q) (by rw [x]) (by rw [zero]; rfl)
    rw [rounds, if_pos none]
    exact Nat.succ_pos _
  · have := (w.boundary a).rounds_le
    rw [after] at this
    omega

theorem boundaries_of_none (h : w.passed = none) (n : Nat) : boundaries a n w = w := by
  cases n with
  | zero => rfl
  | succ n => rw [boundaries, if_pos (by rw [h]; rfl)]

theorem boundaries_of_passed (h : w.passed ≠ none) (n : Nat) : boundaries a (n + 1) w = boundaries a n (w.boundary a) := by
  rw [boundaries, if_neg (by rwa [Option.isNone_iff_eq_none])]

theorem rounds_eq_zero (h : w.rounds = 0) : w.passed = none := by
  by_contra ne
  rw [rounds, if_neg ne] at h
  exact absurd h (Nat.succ_ne_zero _)

/-- As many rounds as can be taken are enough. -/
theorem boundaries_enough {n m : Nat} (hn : w.rounds ≤ n) (hm : w.rounds ≤ m) : boundaries a n w = boundaries a m w := by
  induction n generalizing w m with
  | zero =>
    have none := rounds_eq_zero (Nat.le_zero.mp hn)
    rw [boundaries_of_none a none, boundaries_of_none a none]
  | succ n ih =>
    by_cases passed : w.passed = none
    · rw [boundaries_of_none a passed, boundaries_of_none a passed]
    · have fewer := boundary_rounds_lt a passed
      obtain ⟨m, rfl⟩ : ∃ k, m = k + 1 := ⟨m - 1, by omega⟩
      rw [boundaries_of_passed a passed, boundaries_of_passed a passed]
      exact ih (by omega) (by omega)

theorem boundaries_passed {n : Nat} (h : w.rounds ≤ n) : (boundaries a n w).passed = none := by
  induction n generalizing w with
  | zero => exact rounds_eq_zero (Nat.le_zero.mp h)
  | succ n ih =>
    by_cases passed : w.passed = none
    · rwa [boundaries_of_none a passed]
    · rw [boundaries_of_passed a passed]
      have := boundary_rounds_lt a passed
      exact ih (by omega)

theorem settle_of_none (h : w.passed = none) : w.settle a = w := boundaries_of_none a h _

/-- R123: a boundary that has been passed comes about, and then the rest. -/
theorem settle_of_passed (h : w.passed ≠ none) : w.settle a = (w.boundary a).settle a := by
  have before : w.rounds = w.x.held.length + 1 := if_neg h
  have fewer := boundary_rounds_lt a h
  rw [settle, boundaries_of_passed a h]
  exact boundaries_enough a (by omega) (w.boundary a).rounds_le

theorem settle_passed (w : Work) : (w.settle a).passed = none := boundaries_passed a w.rounds_le

theorem boundaries_run_lastTick (w : Work) (n : Nat) :
    (boundaries a n w).x.run = w.x.run ∧ (boundaries a n w).x.lastTick = w.x.lastTick := by
  induction n generalizing w with
  | zero => exact ⟨rfl, rfl⟩
  | succ n ih =>
    by_cases none : w.passed = none
    · rw [boundaries_of_none a none]
      exact ⟨rfl, rfl⟩
    · obtain ⟨p, passed⟩ := Option.ne_none_iff_exists'.mp none
      obtain ⟨q, onAir, held, x, _⟩ := boundary_x a passed
      rw [boundaries_of_passed a none]
      obtain ⟨run, tick⟩ := ih (w.boundary a)
      exact ⟨run.trans (by rw [x]), tick.trans (by rw [x])⟩

end Work

/-- Settles O22: what is due comes about one thing at a time, at the meter, the checker and the recorder, until nothing is. -/
theorem arrivalsLeaveNothingDue : Obligations.ArrivalsLeaveNothingDue := by
  refine ⟨fun x i => ⟨x.finished, x.finished_iff_done, rfl⟩, fun x i => ⟨x.settle_of_none i, fun h j g due => x.settle_of_due i due, x.settle_due i,
    fun g hg => ?_⟩, fun x i p => ?_, fun w a => ⟨Work.settle_of_none a, fun p passed => ?_, w.settle_passed a⟩⟩
  · rintro isDone
    exact absurd ((x.settle i).1.finished_iff_done g |>.mpr isDone) (by rw [x.settle_finished i g hg]; exact Bool.false_ne_true)
  · refine ⟨x.sendSummaries_eq i, x.settle_of_none i p, fun r w g due => x.settle_of_due i p due, x.settle_due i p, fun g hg => ?_⟩
    exact (CaptionSegment.finished_eq g).symm.trans (x.settle_finished i p g hg)
  · intro b
    rw [Work.settle_of_passed a (by rw [passed]; exact Option.some_ne_none p), Work.boundary_of_passed a passed]

end Sys2Proof.Machine
end

section
/-!
Spans at their boundaries (7.2 to 7.6): the seal, the gap, the slot of the next span, and the recorder's MI tick.
-/

namespace Sys2Proof.Machine

/-! ### A chunk as it is sealed (R132, R134, R137) -/

namespace Chunk

theorem hasFrame_eq_false (c : Chunk) (j pos : Nat) :
    c.hasFrame j pos = false ↔ ∀ f ∈ c.frames, ¬ ((if f.offset < 10 then 0 else 1) = j ∧ f.position = pos) := by
  simp [hasFrame, secondOf]

/-- R132: a chunk misses a frame where a second that its recorded part meets lacks a position of its keep set. -/
theorem misses_iff (c : Chunk) (start : Mi) :
    c.misses start = true ↔
      ∃ j pos : Nat, j < 2 ∧ pos < 25 ∧ c.first < start + 10 * (j + 1) ∧ start + 10 * j < c.endMi ∧ c.keep.getLsbD pos = true ∧
        ∀ f ∈ c.frames, ¬ ((if f.offset < 10 then 0 else 1) = j ∧ f.position = pos) := by
  unfold misses
  simp only [List.any_eq_true, Bool.and_eq_true, decide_eq_true_eq, Bool.not_eq_true', hasFrame_eq_false, List.mem_range,
    List.mem_cons, List.not_mem_nil, or_false]
  constructor
  · rintro ⟨j, hj, ⟨held, ends⟩, pos, hpos, kept, lacks⟩
    exact ⟨j, pos, by rcases hj with rfl | rfl <;> decide, hpos, held, ends, kept, lacks⟩
  · rintro ⟨j, pos, hj, hpos, held, ends, kept, lacks⟩
    exact ⟨j, Nat.le_one_iff_eq_zero_or_eq_one.mp (Nat.le_of_lt_succ hj), ⟨held, ends⟩, pos, hpos, kept, lacks⟩

theorem misses_iff_of_full {c : Chunk} {start : Mi} (h : c.endMi = start + 20) :
    c.misses start = true ↔
      ∃ j pos : Nat, j < 2 ∧ pos < 25 ∧ c.first < start + 10 * (j + 1) ∧ c.keep.getLsbD pos = true ∧
        ∀ f ∈ c.frames, ¬ ((if f.offset < 10 then 0 else 1) = j ∧ f.position = pos) := by
  have ends : ∀ j : Nat, j < 2 → start + 10 * j < c.endMi := fun j hj => by
    rw [h]
    exact Nat.add_lt_add_left (by omega) _
  rw [misses_iff]
  exact ⟨fun ⟨j, pos, hj, hpos, held, _, rest⟩ => ⟨j, pos, hj, hpos, held, rest⟩,
    fun ⟨j, pos, hj, hpos, held, rest⟩ => ⟨j, pos, hj, hpos, held, ends j hj, rest⟩⟩

/-- R134: the segment list with its "more" flag. -/
theorem segmentList_eq (l : List OnAir) (first e : Mi) :
    segmentList l first e =
      let ids : List (Option Nat) :=
        (match (l.filter fun q => decide (q.start ≤ first)).getLast? with
          | none => none
          | some q => q.id) ::
          (l.filter fun q => decide (first < q.start ∧ q.start < e)).map (·.id)
      (ids.take 8, decide (8 < ids.length)) := by
  simp only [segmentList, Bool.decide_and]
  cases (l.filter fun q => decide (q.start ≤ first)).getLast? <;> rfl

end Chunk

namespace Work

variable {w : Work} (a : Around)

/-! ### The end of a span -/

theorem endSpan_gap {p : Span} (h : p.slot = none) :
    w.endSpan a p = { w with out := w.out ++ [increment .chunksNotRecorded a.svc, .appendGap a.svc p.start] } := by
  rw [endSpan, h]
  rfl

theorem endSpan_slot {p : Span} {n : Nat} {y : Slot} (h : p.slot = some n) (hy : slotAt n w.store.slots = some y) :
    w.endSpan a p = w.endChunk a n y (p.start + 20) false := by
  rw [endSpan, h]
  dsimp only
  rw [hy]
  rfl

theorem endChunk_of_count_lt (h : w.store.sealCount < 2 ^ 32 - 1) (n : Nat) (y : Slot) (e : Mi) (cut : Bool) :
    w.endChunk a n y e cut = w.sealChunk a n y e cut :=
  if_neg (Nat.not_le.mpr h)

theorem endChunk_of_count_eq (h : 2 ^ 32 - 1 ≤ w.store.sealCount) (n : Nat) (y : Slot) (e : Mi) (cut : Bool) :
    w.endChunk a n y e cut = w.endAsGap a n y.start y.chunk.first :=
  if_pos h

/-- R137, R132, R134: a slot as it is sealed, its segment list written out. -/
theorem sealedSlot_eq (y : Slot) (k : Nat) (e : Mi) (cut : Bool) :
    w.sealedSlot y k e cut =
      let ids : List (Option Nat) :=
        (match (w.x.onAir.filter fun q => decide (q.start ≤ y.chunk.first)).getLast? with
          | none => none
          | some q => q.id) ::
          (w.x.onAir.filter fun q => decide (y.chunk.first < q.start ∧ q.start < e)).map (·.id)
      let c : Chunk := { y.chunk with endMi := e, segments := ids.take 8, more := decide (8 < ids.length) }
      { y with
        state := .sealed, sealNo := some k, length := 4096 + 384000 + 12288 * c.frames.length + 48 * c.packets.length
        cutShort := cut, fillFrames := w.x.record.proxyLane.isSome && c.misses y.start, chunk := c } := by
  rw [sealedSlot, Chunk.segmentList_eq]
  rfl

theorem sealChunk_eq (n : Nat) (y : Slot) (e : Mi) (cut : Bool) :
    w.sealChunk a n y e cut =
      { x := { w.x with onAir := pruneOnAir w.x.onAir (y.start + 20) }
        store :=
          { w.store with
            sealCount := w.store.sealCount + 1
            slots := putSlot n (w.sealedSlot y (w.store.sealCount + 1) e cut) w.store.slots }
        out := w.out ++ [increment .chunksSealed a.svc] } := rfl

/-- R139: the end of a chunk as a gap. -/
theorem endAsGap_eq (n : Nat) (start first : Mi) :
    w.endAsGap a n start first =
      { x := { w.x with state := some .notRecording }
        store := { w.store with slots := dropSlot n w.store.slots }
        out := w.out ++ [.removeEntry a.svc n start, increment .chunksNotRecorded a.svc, .appendGap a.svc start]
          ++ w.recordingSent a .notRecording first } := by
  have sent : ((w.giveUp a n start).recordGap a start).recordingSent a .notRecording first =
      w.recordingSent a .notRecording first := rfl
  rw [endAsGap, setRecording_eq, sent]
  simp only [recordGap, giveUp, say, List.append_assoc, List.cons_append, List.nil_append]

/-! ### The opening of a span -/

/-- R130: slot `n` filled by a run that has begun. -/
theorem fill_eq (b : Mi) (n : Nat) :
    w.fill a b n =
      { x := { w.x with span := some ⟨b, some n, 0⟩ }
        store := { w.store with slots := putSlot n (w.newSlot a b) w.store.slots }
        out := w.out ++ [.appendStored a.svc n b] } := rfl

theorem openSpan_free {n : Nat} (h : w.store.choose w.x.record = .free n) (b m : Mi) :
    w.openSpan a b m = (w.fill a b n).setRecording a .recording m := by
  rw [openSpan, h]

theorem openSpan_reuse {n : Nat} {old : Slot} (h : w.store.choose w.x.record = .reuse n old) (b m : Mi) :
    w.openSpan a b m = ((w.say [.removeEntry old.svc n old.start]).fill a b n).setRecording a .recording m := by
  rw [openSpan, h]

theorem openSpan_overwrite {n : Nat} {old : Slot} (h : w.store.choose w.x.record = .overwrite n old) (b m : Mi) :
    w.openSpan a b m =
      (((w.say
        [.markLost old.svc n old.start, increment .unarchivedOverwrites old.svc,
          notice .unarchivedOverwrite (some old.svc) (some b) (.lostChunk n old.start)]).fill a b n).testBacklog
        a).setRecording a .recording m := by
  rw [openSpan, h]

theorem openSpan_none (h : w.store.choose w.x.record = .none) (b m : Mi) :
    w.openSpan a b m = { w with x := { w.x with span := some ⟨b, none, 0⟩ } }.setRecording a .notRecording m := by
  rw [openSpan, h]

/-- What has been passed depends on the service's state alone. -/
theorem passed_congr {v : Work} (h : w.x = v.x) : w.passed = v.passed := by
  unfold passed
  rw [h]

end Work

/-! ### The recorder in the part -/

namespace State

variable (s : State) (i : Svc)

theorem setRecorder_self : s.setRecorder i s.recorder[i] = s := by
  unfold setRecorder
  rw [Fin.getElem_fin, Vector.set_getElem_self]

theorem worked_work : s.worked i (s.work i) = s := by
  show ({ s.setRecorder i s.recorder[i] with store := s.store } : State).send [] = s
  rw [setRecorder_self]
  exact State.send_nil s

/-- R136: the backlog is tested in the recorder's work, or in the part after it. -/
theorem worked_testBacklog (w : Work) : s.worked i (w.testBacklog (s.around i)) = (s.worked i w).testBacklog := by
  simp only [worked, Work.testBacklog, testBacklog, send, List.append_assoc]
  rfl

theorem exec_spanBoundary_of_none (h : (s.work i).passed = none) : exec (.spanBoundary i) s = .next s := by
  show Host.Outcome.next (s.worked i ((s.work i).boundary (s.around i))) = _
  rw [Work.boundary_of_none _ h, worked_work]

theorem exec_spanBoundary_of_passed {p : Span} (h : (s.work i).passed = some p) :
    exec (.spanBoundary i) s =
      .next (s.worked i
        (((((s.work i).endSpan (s.around i) p).testBacklog (s.around i)).openSpan (s.around i) (p.start + 20) (p.start + 20)).sortHeld)) := by
  show Host.Outcome.next (s.worked i ((s.work i).boundary (s.around i))) = _
  rw [Work.boundary_of_passed _ h]

/-- R123: a service's work at an MI tick, on the store as the services before it have left it. -/
def tickedWork (t : Mi) (u : State) (i : Svc) : Work :=
  if s.recorder[i].run = .idle then u.work i else ⟨{ s.recorder[i] with lastTick := some t }, u.store, []⟩

theorem takeTick_eq_tickedWork {u : State} (t : Mi) (h : u.recorder[i] = s.recorder[i]) :
    (u.work i).takeTick t = s.tickedWork t u i := by
  have x : (u.work i).x = s.recorder[i] := h
  unfold Work.takeTick tickedWork
  rw [x]
  rfl

theorem settle_tickedWork_x (t : Mi) {u : State} (h : u.recorder[i] = s.recorder[i]) (a : Around) :
    (s.recorder[i].run = .idle → ((s.tickedWork t u i).settle a).x = s.recorder[i]) ∧
    (s.recorder[i].run ≠ .idle →
      ((s.tickedWork t u i).settle a).x.lastTick = some t ∧ ((s.tickedWork t u i).settle a).x.run = s.recorder[i].run) := by
  refine ⟨fun idle => ?_, fun acts => ?_⟩
  · have run : (u.work i).x.run ≠ .active := by
      show u.recorder[i].run ≠ .active
      rw [h, idle]
      nofun
    rw [tickedWork, if_pos idle, Work.settle_of_none a (Work.passed_eq_none_of_run run)]
    exact h
  · obtain ⟨run, tick⟩ := Work.boundaries_run_lastTick a ⟨{ s.recorder[i] with lastTick := some t }, u.store, []⟩
      (s.recorder[i].held.length + 1)
    rw [tickedWork, if_neg acts]
    exact ⟨tick, run⟩

/-- R123: the services' ticks in a row, each on its own state as it stood before them. -/
theorem foldl_recorderTick (t : Mi) {l : List Svc} (nodup : l.Nodup) (u : State) (fresh : ∀ j ∈ l, u.recorder[j] = s.recorder[j])
    (holds : u.holds = s.holds) (now : u.now = s.now) :
    l.foldl (fun x i => x.worked i (((x.work i).takeTick t).settle (x.around i))) u =
        l.foldl (fun x i => x.worked i ((s.tickedWork t x i).settle (s.around i))) u ∧
      ∀ i, (i ∈ l → ∃ v : State, v.recorder[i] = s.recorder[i] ∧
          (l.foldl (fun x i => x.worked i ((s.tickedWork t x i).settle (s.around i))) u).recorder[i] =
            ((s.tickedWork t v i).settle (s.around i)).x) ∧
        (i ∉ l → (l.foldl (fun x i => x.worked i ((s.tickedWork t x i).settle (s.around i))) u).recorder[i] = u.recorder[i]) := by
  induction l generalizing u with
  | nil => exact ⟨rfl, fun i => ⟨fun h => absurd h List.not_mem_nil, fun _ => rfl⟩⟩
  | cons j l ih =>
    obtain ⟨apart, nodup⟩ := List.nodup_cons.mp nodup
    have around : u.around j = s.around j := by rw [State.around, State.around, holds, now]
    have first : ((u.work j).takeTick t).settle (u.around j) = (s.tickedWork t u j).settle (s.around j) := by
      rw [around, s.takeTick_eq_tickedWork j t (fresh j List.mem_cons_self)]
    have place (w : Work) (k : Svc) : (u.worked j w).recorder[k] = if j = k then w.x else u.recorder[k] := by
      show (u.recorder.set j w.x)[k] = _
      simp only [Fin.getElem_fin, Vector.getElem_set, Fin.ext_iff]
    obtain ⟨same, places⟩ := ih nodup (u.worked j ((s.tickedWork t u j).settle (s.around j)))
      (fun k hk => by
        have ne : j ≠ k := fun e => apart (e ▸ hk)
        rw [place, if_neg ne]
        exact fresh k (List.mem_cons_of_mem _ hk)) holds now
    simp only [List.foldl_cons]
    rw [first]
    refine ⟨same, fun i => ⟨fun hi => ?_, fun hi => ?_⟩⟩
    · by_cases later : i ∈ l
      · exact (places i).1 later
      · obtain rfl := (List.mem_cons.mp hi).resolve_right later
        exact ⟨u, fresh i hi, ((places i).2 later).trans ((place _ i).trans (if_pos rfl))⟩
    · have ne : j ≠ i := fun e => hi (e ▸ List.mem_cons_self)
      exact ((places i).2 fun h => hi (List.mem_cons_of_mem _ h)).trans ((place _ i).trans (if_neg ne))

/-- R123: the recorder's work changes its own state, the store and what is under way. -/
theorem foldl_worked_frame (f : State → Svc → Work) (l : List Svc) (u : State) :
    l.foldl (fun x i => x.worked i (f x i)) u =
      { u with
        recorder := (l.foldl (fun x i => x.worked i (f x i)) u).recorder
        store := (l.foldl (fun x i => x.worked i (f x i)) u).store
        inFlight := (l.foldl (fun x i => x.worked i (f x i)) u).inFlight } := by
  induction l generalizing u with
  | nil => rfl
  | cons i l ih => exact ih (u.worked i (f u i))

end State

/-- Settles O43: the end of a span by its slot and the seal counter, the next by the choice of a slot, and the ticks one by one. -/
theorem spansEndAtBoundariesAndTheNextOpen : Obligations.SpansEndAtBoundariesAndTheNextOpen := by
  refine ⟨fun w a p => ⟨Work.endSpan_gap a, fun n y slot there start => ?_⟩, fun w a b m run begun => ?_, fun _ => rfl,
    fun s i w => ⟨rfl, rfl, rfl, s.worked_testBacklog i w⟩, fun s i => ⟨(s.work i).passed_eq_some_iff, s.exec_spanBoundary_of_none i, fun p passed => ?_⟩,
    fun s t => ?_⟩
  · intro k e started ids missing
    rw [Work.endSpan_slot a slot there]
    refine ⟨fun count => ?_, fun count recording => ?_⟩
    · refine ⟨w.x.record.proxyLane.isSome && ({ k with endMi := e } : Chunk).misses p.start, ?_, ?_⟩
      · rw [Bool.and_eq_true]
        exact and_congr Iff.rfl (Chunk.misses_iff_of_full rfl)
      · rw [Work.endChunk_of_count_lt a count, Work.sealChunk_eq, Work.sealedSlot_eq, start]
        rfl
    · have ne : ¬ w.x.state = some .notRecording := by
        rw [recording]
        nofun
      rw [Work.endChunk_of_count_eq a count, Work.endAsGap_eq, Work.recordingSent_notRecording, if_neg ne, start, List.append_assoc]
      rfl
  · have slot (v : Work) (hx : v.x = w.x) (hs : v.store = w.store) : v.newSlot a b = w.newSlot a b := by
      unfold Work.newSlot
      rw [hx, hs]
    intro keep slot' filled records
    have new : w.newSlot a b = slot' := Work.newSlot_eq a begun b
    refine ⟨fun n choice => ?_, fun n old choice => ?_, fun n old choice => ?_, fun choice => ?_⟩
    · rw [Work.openSpan_free a choice, Work.setRecording_eq, Work.recordingSent_recording, Work.fill_eq, new]
      simp only [records, filled, List.append_nil]
    · rw [Work.openSpan_reuse a choice, Work.setRecording_eq, Work.recordingSent_recording, Work.fill_eq, slot (w.say _) rfl rfl, new]
      rfl
    · rw [Work.openSpan_overwrite a choice, Work.setRecording_eq, Work.recordingSent_recording, Work.fill_eq, slot (w.say _) rfl rfl, new]
      rfl
    · rw [Work.openSpan_none a choice, Work.setRecording_eq, Work.recordingSent_notRecording]
  · intro b
    refine ⟨s.exec_spanBoundary_of_passed i passed, ?_⟩
    obtain ⟨q, onAir, held, x, start, _⟩ := Work.boundary_x (s.around i) passed
    refine ⟨s.worked i ((s.work i).boundary (s.around i)), q, rfl, ?_⟩
    have place : (s.worked i ((s.work i).boundary (s.around i))).recorder[i] = ((s.work i).boundary (s.around i)).x := by
      show (s.recorder.set i _)[i] = _
      simp
    rw [place, x]
    exact ⟨rfl, start, rfl⟩
  · intro ticked
    obtain ⟨same, places⟩ := s.foldl_recorderTick t allSvcs_nodup (s.arrive (.recorderMiTick t)) (fun _ _ => rfl) rfl rfl
    have frame := State.foldl_worked_frame (fun x i => ((x.work i).takeTick t).settle (x.around i)) allSvcs
      (s.arrive (.recorderMiTick t))
    obtain ⟨v, hv⟩ : ∃ v, v = allSvcs.foldl (fun x i => x.worked i (((x.work i).takeTick t).settle (x.around i)))
      (s.arrive (.recorderMiTick t)) := ⟨_, rfl⟩
    rw [← hv] at same frame
    rw [← same] at places
    refine ⟨v, congrArg Host.Outcome.next hv.symm, same, frame, fun i => ?_⟩
    obtain ⟨u, before, after⟩ := (places i).1 (mem_allSvcs i)
    obtain ⟨idle, acts⟩ := s.settle_tickedWork_x i t before (s.around i)
    refine ⟨(Work.passed_congr after).trans (Work.settle_passed _ _), fun h => after.trans (idle h), fun h => ?_⟩
    obtain ⟨tick, run⟩ := acts h
    exact ⟨(congrArg (·.lastTick) after).trans tick, (congrArg (·.run) after).trans run⟩

end Sys2Proof.Machine
end

section
/-!
Run started and run ended at the meter, the checker and the recorder: the drain, the flush and the cut.
-/

namespace Sys2Proof.Machine

/-! ### The flush of the checker (R86) -/

namespace CheckerSvc

/-- R86: MIs evaluated in a row, each as the rows and the stream stand. -/
theorem evaluateFrom_presence (x : CheckerSvc) (count : Nat) (m : Mi) :
    evaluateFrom count m x =
      { x with presence := x.presence ++ (List.range' m count).map fun m => ⟨m, x.presentNow, x.isLost⟩ } := by
  induction count generalizing m x with
  | zero =>
    show x = _
    rw [List.range'_zero, List.map_nil, List.append_nil]
  | succ count ih =>
    rw [evaluateFrom, ih, List.range'_succ, List.map_cons]
    exact congrArg (fun l => { x with presence := l }) (List.append_cons ..).symm

theorem flush_eq {x : CheckerSvc} {a : Mi} (start : x.runStart = some a) (e : Mi) :
    x.flush e =
      { x with
        presence := x.presence ++ (List.range' (x.lastTick.getD a) (e - x.lastTick.getD a)).map fun m => ⟨m, x.presentNow, x.isLost⟩
        textSeen := x.textSeen && decide (e ≤ x.lastTick.getD a) } := by
  have from_eq : x.flushFrom = x.lastTick.getD a := by
    unfold flushFrom
    rw [start]
    cases x.lastTick <;> rfl
  have seen : (if x.lastTick.getD a < e then false else x.textSeen) = (x.textSeen && decide (e ≤ x.lastTick.getD a)) := by
    by_cases h : x.lastTick.getD a < e
    · rw [if_pos h, decide_eq_false (Nat.not_le.mpr h), Bool.and_false]
    · rw [if_neg h, decide_eq_true (Nat.not_lt.mp h), Bool.and_true]
  rw [flush, evaluateFrom_presence, from_eq, seen]

end CheckerSvc

/-! ### Run started and run ended by run state -/

theorem MeterSvc.runEnded_of_measuring {x : MeterSvc} (svc : Svc) {a : Mi} (run : x.run = .measuring) (start : x.runStart = some a) (b : Mi) :
    x.runEnded svc (some b) =
      let first : Mi := match x.ring.getLast? with
        | none => a
        | some r => r.mi + 1
      let d := MeterSvc.drainFrom svc (b - first) first x
      ({ d.1 with run := .idle, input := [] }, d.2) := by
  unfold MeterSvc.runEnded
  rw [run]
  dsimp only
  rw [MeterSvc.nextMi_eq, start] <;> rfl

theorem CheckerSvc.runEnded_of_measuring {x : CheckerSvc} (svc : Svc) (profiles : Vector Profile 8) (run : x.run = .measuring)
    (b : Mi) :
    x.runEnded svc profiles (some b) =
      let c := (x.flush b).settle svc profiles
      ({ c.1.discardUncovered with run := .idle }, c.2) := by
  unfold CheckerSvc.runEnded
  rw [run]

/-! ### The cut of a span (R138) -/

/-- R138: an MI of the recorded part below `e` has no judgment. -/
def Chunk.missed (first : Mi) (p : Span) (e : Mi) (o : Fin 20) : Bool :=
  decide (first ≤ p.start + o.val) && decide (p.start + o.val < e) && !p.judged.getLsbD o.val

theorem Chunk.missed_iff {first : Mi} {p : Span} {e : Mi} {o : Fin 20} :
    Chunk.missed first p e o = true ↔ first ≤ p.start + o.val ∧ p.start + o.val < e ∧ p.judged.getLsbD o.val = false := by
  simp [Chunk.missed, and_assoc]

namespace Work

/-- R131: the audio area with one MI's part zeroed, and then those of a set. -/
theorem ofFn_zeroed_set (v : Vector (List (Int × Int)) 20) (k : Fin 20) (l : List (Fin 20)) (gone : Fin 20 → Bool)
    (h : gone k = true) :
    (Vector.ofFn fun o : Fin 20 => if o ∈ l ∧ gone o = true then [] else (v.set k [])[o]) =
      Vector.ofFn fun o : Fin 20 => if o ∈ k :: l ∧ gone o = true then [] else v[o] := by
  refine congrArg Vector.ofFn (funext fun o => ?_)
  by_cases same : o = k
  · subst same
    simp [h]
  · have apart : k.val ≠ o.val := fun e => same (Fin.ext e.symm)
    simp [same, apart]

theorem ofFn_zeroed_of_kept (v : Vector (List (Int × Int)) 20) (k : Fin 20) (l : List (Fin 20)) (gone : Fin 20 → Bool)
    (h : ¬ gone k = true) :
    (Vector.ofFn fun o : Fin 20 => if o ∈ l ∧ gone o = true then [] else v[o]) =
      Vector.ofFn fun o : Fin 20 => if o ∈ k :: l ∧ gone o = true then [] else v[o] := by
  refine congrArg Vector.ofFn (funext fun o => ?_)
  by_cases same : o = k
  · subst same
    simp [h]
  · simp [same]

/-- R138: the MIs without a judgment are marked absent, whatever the order. -/
theorem foldl_markAbsent (p : Span) (e : Mi) (l : List (Fin 20)) (c : Chunk) :
    ∃ absent : BitVec 20,
      l.foldl (fun c o =>
        if c.first ≤ p.start + o.val ∧ p.start + o.val < e ∧ p.judged.getLsbD o.val = false then c.markAbsent o else c) c =
        { c with
          audio := Vector.ofFn fun o : Fin 20 => if o ∈ l ∧ Chunk.missed c.first p e o = true then [] else c.audio[o]
          absent := absent } ∧
      ∀ o : Fin 20, absent.getLsbD o.val = (c.absent.getLsbD o.val || (decide (o ∈ l) && Chunk.missed c.first p e o)) := by
  induction l generalizing c with
  | nil =>
    refine ⟨c.absent, ?_, fun o => by simp⟩
    simp
  | cons k l ih =>
    rw [List.foldl_cons]
    by_cases missing : Chunk.missed c.first p e k = true
    · obtain ⟨absent, eq, bits⟩ := ih (c.markAbsent k)
      refine ⟨absent, ?_, fun o => (bits o).trans ?_⟩
      · rw [if_pos (Chunk.missed_iff.mp missing), eq]
        exact congrArg (fun v => { c with audio := v, absent := absent })
          (ofFn_zeroed_set c.audio k l (Chunk.missed c.first p e) missing)
      · show ((c.absent ||| BitVec.twoPow 20 k.val).getLsbD o.val || (decide (o ∈ l) && Chunk.missed c.first p e o)) = _
        rw [BitVec.getLsbD_or, BitVec.getLsbD_twoPow]
        by_cases same : o = k
        · subst same
          simp [missing]
        · have apart : ¬ k.val = o.val := fun h => same (Fin.ext h.symm)
          simp [same, apart]
    · obtain ⟨absent, eq, bits⟩ := ih c
      refine ⟨absent, ?_, fun o => (bits o).trans ?_⟩
      · rw [if_neg fun h => missing (Chunk.missed_iff.mpr h), eq]
        exact congrArg (fun v => { c with audio := v, absent := absent })
          (ofFn_zeroed_of_kept c.audio k l (Chunk.missed c.first p e) missing)
      · by_cases same : o = k
        · subst same
          simp [missing]
        · simp [same]

/-- R138, R131, R135: the chunk of a cut, with what is left of its first `n` offsets, and the MIs of it that have no judgment absent. -/
theorem completeAbsent_keepBelow (p : Span) (c : Chunk) (n : Nat) (e : Mi) :
    ∃ absent : BitVec 20,
      completeAbsent p (c.keepBelow n) e =
        { c with
          audio := Vector.ofFn fun o : Fin 20 => if o.val < n ∧ Chunk.missed c.first p e o = false then c.audio[o] else []
          frames := c.frames.filter fun f => decide (f.offset < n)
          packets := c.packets.filter fun p => decide (p.offset < n)
          overflow := Vector.ofFn fun o : Fin 20 => if o.val < n then c.overflow[o] else 0
          absent := absent } ∧
      ∀ o : Fin 20, absent.getLsbD o.val = ((decide (o.val < n) && c.absent.getLsbD o.val) || Chunk.missed c.first p e o) := by
  obtain ⟨absent, eq, bits⟩ := foldl_markAbsent p e (List.finRange 20) (c.keepBelow n)
  simp only [Chunk.keepBelow, List.mem_finRange, true_and, decide_true, Bool.true_and] at eq bits
  refine ⟨absent, eq.trans ?_, fun o => (bits o).trans ?_⟩
  · refine congrArg (fun v => { c with
      audio := Vector.ofFn v, frames := _, packets := _, overflow := _, absent := absent : Chunk }) (funext fun o => ?_)
    cases Chunk.missed c.first p e o <;> simp
  · rw [BitVec.getLsbD_and, BitVec.getLsbD_ofNat, Nat.testBit_two_pow_sub_one, decide_eq_true o.isLt, Bool.true_and,
      Bool.and_comm (c.absent.getLsbD _)]

theorem completeAbsent_keepBelow_first (p : Span) (c : Chunk) (n : Nat) (e : Mi) :
    (completeAbsent p (c.keepBelow n) e).first = c.first := by
  obtain ⟨absent, eq, _⟩ := completeAbsent_keepBelow p c n e
  rw [eq]

/-! ### The span of a run that ends (R138) -/

variable {w : Work} (a : Around) {p : Span} (e : Mi)

theorem cut_of_none (h : w.x.span = none) : w.cut a e = w.idle := by rw [cut, h]

theorem cut_of_span (h : w.x.span = some p) : w.cut a e = (w.cutSpan a p e).idle := by rw [cut, h]

theorem cutSpan_gap (h : p.slot = none) {b : Mi} (start : w.x.runStart = some b) :
    w.cutSpan a p e = if max p.start b < min e (p.start + 20) then w.recordGap a p.start else w := by
  rw [cutSpan, h]
  dsimp only
  rw [start]
  rfl

section
variable {n : Nat} {y : Slot} (h : p.slot = some n) (there : slotAt n w.store.slots = some y)
include h there

theorem cutSpan_empty (none : min e (p.start + 20) ≤ y.chunk.first) : w.cutSpan a p e = w.giveUp a n p.start := by
  rw [cutSpan, h]
  dsimp only
  rw [there]
  exact if_neg (Nat.not_lt.mpr none)

theorem cutSpan_chunk (some : y.chunk.first < min e (p.start + 20)) :
    w.cutSpan a p e =
      w.endChunk a n
        { y with chunk := completeAbsent p (y.chunk.keepBelow (min e (p.start + 20) - p.start)) (min e (p.start + 20)) }
        (min e (p.start + 20)) true := by
  rw [cutSpan, h]
  dsimp only
  rw [there]
  exact if_pos some

end

end Work

/-- Settles O20: the three blocks by the state of the run; the drain and the flush go over their MIs, and the cut over the offsets of
its chunk. -/
theorem runsBeginAndEndInTheBlocks : Obligations.RunsBeginAndEndInTheBlocks := by
  refine ⟨fun s i => ?_, fun s i e => ?_, fun x i m n => ?_, fun s i e => ?_, fun s i e => ?_, fun w a e => ?_⟩
  · intro m k r new um uk ur
    refine ⟨fun idle => ?_, fun acts => ?_, fun idle => ?_, fun acts => ?_, fun idle => ?_, fun acts => ?_⟩
    · have zero : (new.channels.map fun _ => EntryFilter.zero) = List.replicate new.channels.length EntryFilter.zero :=
        List.map_const' ..
      refine congrArg (fun x => Host.Outcome.next (um.setMeter i x)) ((if_pos idle).trans ?_)
      exact congrArg (fun l => { m with
        run := .waiting, runStart := none, input := [], filters := l, prevAbsent := false, ring := [], passed := []
        lastBlock := .none, lastShort := none, record := new }) zero
    · exact congrArg (fun x => Host.Outcome.next (um.setMeter i x)) (if_neg acts) |>.trans
        (congrArg Host.Outcome.next (State.send_nil (um.setMeter i m)) |>.symm.trans
          (congrArg Host.Outcome.next (um.meterDoes_nothing i)))
    · exact congrArg (fun x => Host.Outcome.next (uk.setChecker i x)) (if_pos idle)
    · exact congrArg (fun x => Host.Outcome.next (uk.setChecker i x)) (if_neg acts) |>.trans
        (congrArg Host.Outcome.next (uk.setChecker_self i))
    · exact congrArg (fun x => Host.Outcome.next (ur.setRecorder i x)) (if_pos idle)
    · exact congrArg (fun x => Host.Outcome.next (ur.setRecorder i x)) (if_neg acts) |>.trans
        (congrArg Host.Outcome.next (ur.setRecorder_self i))
  · intro m um
    have run (x : MeterSvc × List Instr) (h : m.runEnded i e = x) :
        exec (.meterRunEnded i e) s = .next (um.meterDoes i x) := congrArg (fun x => Host.Outcome.next (um.meterDoes i x)) h
    refine ⟨fun still => ?_, fun waiting => ?_, fun a b acts start ends => ?_⟩
    · refine (run (m, []) ?_).trans (congrArg Host.Outcome.next (um.meterDoes_nothing i))
      rcases still with idle | ⟨acts, rfl⟩
      · simp only [MeterSvc.runEnded, idle]
      · simp only [MeterSvc.runEnded, acts]
    · refine (run ({ m with run := .idle, input := [] }, []) ?_).trans (congrArg Host.Outcome.next (State.send_nil _))
      simp only [MeterSvc.runEnded, waiting]
    · subst ends
      exact run _ (MeterSvc.runEnded_of_measuring i acts start b)
  · intro h mine
    refine ⟨rfl, fun none => ?_, fun g last => ?_⟩
    · refine MeterSvc.drainFrom_of_unattributed x i ?_ n
      rw [MeterSvc.attributed_eq]
      exact List.getLast?_eq_none_iff.mpr none
    · intro c y r
      rw [MeterSvc.drainFrom_of_attributed x i ((x.attributed_eq m).trans last), MeterSvc.find?_held, MeterSvc.newHeld_eq] <;> rfl
  · intro k uk
    have run (x : CheckerSvc × List Instr) (h : k.runEnded i s.compliance.profiles e = x) :
        exec (.checkerRunEnded i e) s = .next (uk.checkerDoes i x) :=
      congrArg (fun x => Host.Outcome.next (uk.checkerDoes i x)) h
    refine ⟨fun still => ?_, fun waiting => ?_, fun a b acts start ends => ?_⟩
    · refine (run (k, []) ?_).trans (congrArg Host.Outcome.next (uk.checkerDoes_nothing i))
      rcases still with idle | ⟨acts, rfl⟩
      · simp only [CheckerSvc.runEnded, idle]
      · simp only [CheckerSvc.runEnded, acts]
    · refine (run ({ k.discardUncovered with run := .idle }, []) ?_).trans (congrArg Host.Outcome.next (State.send_nil _))
      simp only [CheckerSvc.runEnded, waiting]
    · subst ends
      intro first present lost c
      have done := CheckerSvc.runEnded_of_measuring i s.compliance.profiles acts b
      rw [CheckerSvc.flush_eq start, CheckerSvc.presentNow_eq, CheckerSvc.isLost_eq] at done
      exact run _ done
  · intro r ur
    have run (w : Work) (h : (s.work i).runEnded (s.around i) e = w) :
        exec (.recorderRunEnded i e) s = .next (ur.worked i w) := congrArg (fun w => Host.Outcome.next (ur.worked i w)) h
    have x : (s.work i).x.run = r.run := rfl
    refine ⟨fun still => ?_, fun waiting => ?_, fun b acts ends => ?_⟩
    · refine (run (s.work i) ?_).trans (congrArg Host.Outcome.next (ur.worked_work i))
      rcases still with idle | ⟨acts, rfl⟩
      · simp only [Work.runEnded, x, idle]
      · simp only [Work.runEnded, x, acts]
    · refine (run (s.work i).idle ?_).trans (congrArg Host.Outcome.next (State.send_nil _))
      simp only [Work.runEnded, x, waiting]
    · subst ends
      refine (run (((s.work i).cut (s.around i) b).testBacklog (s.around i)) ?_).trans
        (congrArg Host.Outcome.next (ur.worked_testBacklog i _))
      simp only [Work.runEnded, x, acts]
  · intro ended
    refine ⟨Work.cut_of_none a e, fun p span => ?_⟩
    intro last
    rw [Work.cut_of_span a e span]
    refine ⟨fun b gap start => ?_, fun n y slot there begun => ?_⟩
    · rw [Work.cutSpan_gap a e gap start]
      split
      · rfl
      · rw [List.append_nil]
        rfl
    · intro k dropped
      refine ⟨fun none => ?_, fun some count => ?_, fun some count => ?_⟩
      · rw [Work.cutSpan_empty a e slot there none]
        rfl
      · rw [Work.cutSpan_chunk a e slot there some, Work.endChunk_of_count_eq a count, Work.completeAbsent_keepBelow_first,
          Work.endAsGap_eq, Work.recordingSent_notRecording, begun]
        rfl
      · intro size missed frames packets started ids misses
        obtain ⟨absent, chunk, bits⟩ := Work.completeAbsent_keepBelow p y.chunk (min e (p.start + 20) - p.start) (min e (p.start + 20))
        have cut := congrArg Work.idle ((Work.cutSpan_chunk a e slot there some).trans (Work.endChunk_of_count_lt a count ..))
        rw [chunk, Work.sealChunk_eq, Work.sealedSlot_eq] at cut
        exact ⟨absent, _, bits, by
          rw [begun]
          exact (Bool.and_eq_true _ _).to_iff.trans (and_congr Iff.rfl (Chunk.misses_iff _ _)), cut⟩

end Sys2Proof.Machine
end

section
/-!
The recorder's arrivals: on-air messages, and input sorted into the current span.
-/

namespace Sys2Proof.Machine

namespace State

variable (s : State) (i : Svc)

/-- The work of an arrival that leaves nothing due, and changes the service's state alone. -/
theorem worked_of_x {w : Work} (x : RecorderSvc) (h : w = ⟨x, s.store, []⟩) :
    s.worked i w = { s with recorder := s.recorder.set i x } := by
  rw [h]
  exact State.send_nil _

theorem exec_onAirMessage {m : OnAirMsg} {w : Work} (h : (s.work i).onAir (s.around i) m = w) :
    exec (.onAirMessage i m) s = .next ((s.arrive (.onAirMessage i m)).worked i (w.settle (s.around i))) :=
  congrArg (fun w : Work => Host.Outcome.next ((s.arrive (.onAirMessage i m)).worked i (w.settle (s.around i)))) h

end State

namespace Work

variable {w : Work} (a : Around) {m : OnAirMsg}

/-! ### On-air messages by run state (R122) -/

theorem onAir_idle (h : w.x.run = .idle) : w.onAir a m = w := by rw [onAir, h]

theorem onAir_active (h : w.x.run = .active) : w.onAir a m = { w with x := { w.x with onAir := w.x.onAir ++ [⟨m.id, m.start⟩] } } := by
  rw [onAir, h]

/-- R122: the run that the first on-air message begins. -/
def begun (x : RecorderSvc) (m : OnAirMsg) : RecorderSvc :=
  { x with
    run := .active, runStart := some m.start, runInst := some m.inst, onAir := x.onAir ++ [⟨m.id, m.start⟩]
    held := x.held.filter fun h => decide (m.start ≤ h.mi) }

theorem onAir_waiting (h : w.x.run = .waiting) (off : w.x.enable ≠ some true) : w.onAir a m = { w with x := begun w.x m } := by
  rw [onAir, h]
  exact if_neg off

theorem onAir_waiting_recording (h : w.x.run = .waiting) (on : w.x.enable = some true) :
    w.onAir a m = ({ w with x := begun w.x m }.openSpan a (20 * (m.start / 20)) m.start).sortHeld := by
  rw [onAir, h]
  exact if_pos on

/-- R124: with nothing held there is nothing to sort. -/
theorem sortHeld_of_none (h : w.x.held = []) : w.sortHeld = w := by
  rw [sortHeld, h, List.foldl_nil, ← h]

/-- A span that has just opened with nothing held has its boundary ahead. -/
theorem settle_openSpan (h : w.x.held = []) (b m : Mi) : ((w.openSpan a b m).sortHeld).settle a = w.openSpan a b m := by
  obtain ⟨slot, x⟩ := openSpan_x a w b m
  have held : (w.openSpan a b m).x.held = [] := by rw [x]; exact h
  have span : (w.openSpan a b m).x.span = some ⟨b, slot, 0⟩ := by rw [x]
  rw [sortHeld_of_none held, settle_of_none a (passed_eq_none_of_judged span BitVec.getLsbD_zero)]

/-- R136: the backlog test and a change of the recording state of which nothing is sent go past one another. -/
theorem setRecording_testBacklog (state : Recording) (m : Mi) (h : (w.testBacklog a).recordingSent a state m = []) :
    (w.testBacklog a).setRecording a state m = ({ w with x := { w.x with state := some state } } : Work).testBacklog a := by
  rw [setRecording_eq, h, List.append_nil]
  rfl

/-! ### Input by run state (R122, R124) -/

variable {k : HeldItem}

theorem takeItem_off (h : w.x.run = .idle ∨ w.x.enable ≠ some true) : w.takeItem k = w := by
  unfold takeItem
  split
  · next on => rw [h.resolve_right (not_not_intro on)]
  · rfl

theorem takeItem_waiting (h : w.x.run = .waiting) (on : w.x.enable = some true) :
    w.takeItem k = { w with x := { w.x with held := w.x.held ++ [k] } } := by
  rw [takeItem, if_pos on, h]

theorem takeItem_active (h : w.x.run = .active) (on : w.x.enable = some true) : w.takeItem k = w.sort k := by
  rw [takeItem, if_pos on, h]

/-! ### An item in the current span (R123, R131 to R133) -/

theorem judgedAfter_eq (p : Span) (o : Fin 20) (item : RecorderItem) :
    judgedAfter p o item = match item with
      | .judgment _ => p.judged ||| BitVec.twoPow 20 o.val
      | _ => p.judged := by
  cases item <;> rfl

/-- R131: the places of the two downmixed samples. -/
theorem downmix_eq (channels : List ChannelEntry) (f : SampleFrame) :
    Chunk.downmix channels f =
      let place (e : Option ChannelEntry) : Int := match e with
        | none => 0
        | some e => f.getD e.channel.val 0 / 256
      (place channels.head?, place (match channels with
        | _ :: e :: _ => some e
        | _ => channels.head?)) := rfl

theorem addProxy_eq (c : Chunk) (o : Nat) (f : ProxyFrame) :
    c.addProxy o f =
      if f.valid = true ∧ c.keep.getLsbD f.position = true ∧
          (∀ e ∈ c.frames, ¬ ((if e.offset < 10 then 0 else 1) = (if o < 10 then 0 else 1) ∧ e.position = f.position)) ∧
          c.frames.length < 50 then
        { c with frames := c.frames ++ [⟨o, f.position, f.bytes⟩] }
      else c := by
  have test : (f.valid && c.keep.getLsbD f.position && !c.hasFrame (secondOf o) f.position && decide (c.frames.length < 50)) = true ↔
      f.valid = true ∧ c.keep.getLsbD f.position = true ∧
        (∀ e ∈ c.frames, ¬ ((if e.offset < 10 then 0 else 1) = (if o < 10 then 0 else 1) ∧ e.position = f.position)) ∧
        c.frames.length < 50 := by
    rw [Bool.and_eq_true, Bool.and_eq_true, Bool.and_eq_true, Bool.not_eq_true', Chunk.hasFrame_eq_false, decide_eq_true_eq,
      and_assoc, and_assoc]
    rfl
  exact if_congr test rfl rfl

theorem update_of_slotAt {x : Store} {n : Nat} {y : Slot} (h : slotAt n x.slots = some y) (f : Slot → Slot) :
    x.update n f = { x with slots := putSlot n (f y) x.slots } := by
  rw [Store.update, h]

end Work

/-- Settles O41: the message by the state of the run, and the first span by the slot chosen. -/
theorem onAirMessageOpensTheFirstSpan : Obligations.OnAirMessageOpensTheFirstSpan := by
  intro s i m c u x a b begun
  refine ⟨fun idle => ?_, fun active => ?_, fun active still => ?_, fun waiting off span => ?_, fun waiting on => ?_,
    fun waiting on noHeld noState => ?_⟩
  · rw [s.exec_onAirMessage i (Work.onAir_idle a idle), Work.settle_of_none]
    · exact congrArg Host.Outcome.next (u.worked_work i)
    · exact Work.passed_eq_none_of_run (by
        show s.recorder[i].run ≠ .active
        rw [idle]
        nofun)
  · exact s.exec_onAirMessage i (Work.onAir_active a active)
  · rw [s.exec_onAirMessage i (Work.onAir_active a active), Work.settle_of_none]
    · exact congrArg Host.Outcome.next (u.worked_of_x i _ rfl)
    · exact still
  · rw [s.exec_onAirMessage i (Work.onAir_waiting a waiting off), Work.settle_of_none]
    · exact congrArg Host.Outcome.next (u.worked_of_x i _ rfl)
    · exact Work.passed_eq_none_of_span span
  · exact s.exec_onAirMessage i (Work.onAir_waiting_recording a waiting on)
  · intro keep slot opened
    have held : (Work.begun x m).held = [] := by
      show x.held.filter _ = []
      rw [noHeld, List.filter_nil]
    have same : Work.begun x m = { begun with held := [] } := congrArg (fun l => { begun with held := l }) held
    have opens : exec c s = .next (u.worked i ((Work.mk { begun with held := [] } s.store []).openSpan a b m.start)) := by
      rw [s.exec_onAirMessage i (Work.onAir_waiting_recording a waiting on), Work.settle_openSpan a held]
      exact congrArg (fun y => Host.Outcome.next (u.worked i ((Work.mk y s.store []).openSpan a b m.start))) same
    have first : max b m.start = m.start := Nat.max_eq_right (Nat.mul_div_le ..)
    have new (ms : List Instr) : (Work.mk { begun with held := [] } s.store ms).newSlot a b = slot := by
      rw [Work.newSlot_eq a (run := m.start) rfl, first] <;> rfl
    have fresh : ¬ x.state = some .notRecording := by
      rw [noState]
      nofun
    have quiet (w : Work) (h : w.x.state = x.state) : w.recordingSent a .recording m.start = [] := by
      rw [Work.recordingSent_recording, h, if_neg fresh]
    refine ⟨fun n choice => ?_, fun n old choice => ?_, fun n old choice => ?_, fun choice => ?_⟩
    · rw [opens, Work.openSpan_free a choice, Work.setRecording_eq, quiet _ rfl, Work.fill_eq, new]
      rfl
    · rw [opens, Work.openSpan_reuse a choice, Work.setRecording_eq, quiet _ rfl, Work.fill_eq]
      have said : ((Work.mk { begun with held := [] } s.store []).say [.removeEntry old.svc n old.start]).newSlot a b = slot := new _
      rw [said]
      rfl
    · rw [opens, Work.openSpan_overwrite a choice, Work.setRecording_testBacklog a _ _ (quiet _ rfl), Work.fill_eq]
      have said : ((Work.mk { begun with held := [] } s.store []).say
          [.markLost old.svc n old.start, increment .unarchivedOverwrites old.svc,
            notice .unarchivedOverwrite (some old.svc) (some b) (.lostChunk n old.start)]).newSlot a b = slot := new _
      rw [said]
      exact congrArg Host.Outcome.next (u.worked_testBacklog i _)
    · rw [opens, Work.openSpan_none a choice, Work.setRecording_eq, Work.recordingSent_notRecording, if_neg fresh]
      rfl

/-- R131 to R133: what an item does to a filling chunk, written out. -/
theorem Work.applyTo_eq (r : ServiceRecord) (k : Chunk) (m : Mi) (o : Fin 20) (item : RecorderItem) :
    let place (f : SampleFrame) (e : Option ChannelEntry) : Int := match e with
      | none => 0
      | some e => f.getD e.channel.val 0 / 256
    let left := r.channels.head?
    let right := match r.channels with
      | _ :: e :: _ => some e
      | _ => left
    let second (o : Nat) : Nat := if o < 10 then 0 else 1
    Work.applyTo r k m o item = match item with
      | .frame f =>
        if k.first ≤ m ∧ k.audio[o].length < 4800 then
          { k with audio := k.audio.set o (k.audio[o] ++ [(place f left, place f right)]) }
        else k
      | .judgment (.present _) => k
      | .judgment .absent =>
        if k.first ≤ m then { k with audio := k.audio.set o [], absent := k.absent ||| BitVec.twoPow 20 o.val } else k
      | .packet q =>
        if q.stream ≠ r.captionStream.val then k
        else if k.packets.length < 512 then { k with packets := k.packets ++ [⟨o.val, q⟩] }
        else { k with overflow := k.overflow.set o (k.overflow[o] + 1) }
      | .proxy f =>
        if f.valid = true ∧ k.keep.getLsbD f.position = true ∧
            (∀ e ∈ k.frames, ¬ (second e.offset = second o.val ∧ e.position = f.position)) ∧ k.frames.length < 50 then
          { k with frames := k.frames ++ [⟨o.val, f.position, f.bytes⟩] }
        else k := by
  intro place left right second
  cases item with
  | frame f => exact (ite_and ..).symm
  | judgment j => cases j <;> rfl
  | packet q => rfl
  | proxy f => exact Work.addProxy_eq k o.val f

namespace State

variable (s : State) (i : Svc)

theorem exec_recorderInput {m : Mi} {c : Instr} {item : RecorderItem}
    (h : (∃ f, c = .recorderSampleFrame i m f ∧ item = .frame f) ∨ (∃ j, c = .recorderJudgment i m j ∧ item = .judgment j) ∨
      (∃ p, c = .recorderCaptionPacket i m p ∧ item = .packet p) ∨ (∃ f, c = .recorderProxyFrame i m f ∧ item = .proxy f)) :
    exec c s = .next ((s.arrive c).worked i (((s.work i).takeItem ⟨m, item⟩).settle (s.around i))) := by
  rcases h with ⟨f, rfl, rfl⟩ | ⟨j, rfl, rfl⟩ | ⟨p, rfl, rfl⟩ | ⟨f, rfl, rfl⟩ <;> rfl

end State

/-- Settles O42: the item by the state of the run and its MI against the current span. -/
theorem recorderInputIsSortedAndStored : Obligations.RecorderInputIsSortedAndStored := by
  intro s i m c item input u x w a held
  have taken := s.exec_recorderInput i input
  have nothing (y : Work) (same : w.takeItem ⟨m, item⟩ = y) (none : y.passed = none) : exec c s = .next (u.worked i y) := by
    rw [taken]
    refine congrArg (fun y => Host.Outcome.next (u.worked i y)) ?_
    rw [show (s.work i).takeItem ⟨m, item⟩ = y from same]
    exact Work.settle_of_none a none
  refine ⟨fun off none => ?_, fun waiting on => ?_, fun active on => ?_, fun p active on span => ?_⟩
  · exact (nothing w (Work.takeItem_off off) none).trans (congrArg Host.Outcome.next (u.worked_work i))
  · refine (nothing _ (Work.takeItem_waiting waiting on) (Work.passed_eq_none_of_run ?_)).trans
      (congrArg Host.Outcome.next (u.worked_of_x i _ rfl))
    show s.recorder[i].run ≠ .active
    rw [show s.recorder[i].run = _ from waiting]
    nofun
  · rw [taken, show (s.work i).takeItem ⟨m, item⟩ = _ from Work.takeItem_active active on]
  · have sorts : w.takeItem ⟨m, item⟩ = w.sort ⟨m, item⟩ := Work.takeItem_active active on
    refine ⟨fun below => ?_, fun later => ?_, fun o within => ?_⟩
    · have stays : w.sort ⟨m, item⟩ = w := Work.sort_below span below
      exact ⟨stays, fun none => (nothing w (sorts.trans stays) none).trans (congrArg Host.Outcome.next (u.worked_work i))⟩
    · have waits : w.sort ⟨m, item⟩ = { w with x := { x with held := x.held ++ [⟨m, item⟩] } } := Work.sort_later span later
      exact ⟨waits, fun none => (nothing _ (sorts.trans waits) none).trans (congrArg Host.Outcome.next (u.worked_of_x i _ rfl))⟩
    · intro judged stays sorted
      have noted : Work.judgedAfter p o item = judged := Work.judgedAfter_eq p o item
      have applied := Work.sort_within (w := w) span (k := ⟨m, item⟩) o within
      rw [show Work.judgedAfter p o (HeldItem.mk m item).item = judged from noted] at applied
      have ahead (h : stays) (store : Store) :
          ({ w with x := { x with span := some { p with judged := judged } }, store := store } : Work).passed = none := by
        refine Option.eq_none_iff_forall_ne_some.mpr fun q passed => ?_
        obtain ⟨_, there, last, t, tick, late⟩ := (Work.passed_eq_some_iff _ q).mp passed
        obtain rfl := Option.some.inj there
        exact Bool.false_ne_true ((h.2 t tick late).symm.trans last)
      refine ⟨fun gap => ?_, fun n y slot there => ?_⟩
      · have noChunk : w.sort ⟨m, item⟩ = { w with x := { x with span := some { p with judged := judged } } } := by
          rw [applied, gap] <;> rfl
        exact ⟨noChunk, fun h => (nothing _ (sorts.trans noChunk) (ahead h s.store)).trans
          (congrArg Host.Outcome.next (u.worked_of_x i _ rfl))⟩
      · intro k place left right second chunk store
        have changed : (w.store.update n fun y => { y with chunk := Work.applyTo w.x.record y.chunk m o item }) = store := by
          rw [Work.update_of_slotAt (x := w.store) there, show Work.applyTo w.x.record y.chunk m o item = chunk from Work.applyTo_eq ..]
          rfl
        have stored : w.sort ⟨m, item⟩ = { w with x := { x with span := some { p with judged := judged } }, store := store } := by
          have chosen : (match p.slot with
              | none => w.store
              | some n => w.store.update n fun y => { y with chunk := Work.applyTo w.x.record y.chunk m o item }) = store := by
            rw [slot]
            exact changed
          rw [applied]
          exact congrArg (fun store => ({ w with x := { x with span := some { p with judged := judged } }, store := store } : Work)) chosen
        exact ⟨stored, fun h => (nothing _ (sorts.trans stored) (ahead h store)).trans (congrArg Host.Outcome.next (State.send_nil _))⟩

end Sys2Proof.Machine
end

section
/-!
The recording store (7.1, 7.3, 7.5): its settings, the backlog test, and the slot of a new chunk.
-/

namespace Sys2Proof.Machine

/-! ### The states of a slot -/

theorem Slot.isArchived_iff (x : Slot) : x.isArchived = true ↔ ∃ t, x.state = .archived t := by
  unfold Slot.isArchived
  cases x.state <;> simp

theorem Slot.isSealed_iff (x : Slot) : x.isSealed = true ↔ x.state = .sealed := beq_iff_eq

theorem Slot.isReusable_iff (x : Slot) : x.isReusable = true ↔ (∃ t, x.state = .archived t) ∧ x.holdCount = 0 := by
  rw [Slot.isReusable, Bool.and_eq_true, Slot.isArchived_iff, beq_iff_eq]

theorem Slot.isOverwritable_iff (x : Slot) : x.isOverwritable = true ↔ x.state = .sealed ∧ x.holdCount = 0 := by
  rw [Slot.isOverwritable, Bool.and_eq_true, Slot.isSealed_iff, beq_iff_eq]

/-! ### CONFIGURE STORE (R120) -/

/-- R120: no chunk is to be kept, and no hold is live. -/
theorem State.store_free_iff (s : State) :
    ¬ (s.store.inUse = true ∨ s.anyHold = true) ↔
      (∀ e ∈ s.store.slots, ∃ t, e.2.state = .archived t) ∧ ∀ k : Fin 32, s.holds[k] = none := by
  have slots : s.store.inUse = false ↔ ∀ e ∈ s.store.slots, ∃ t, e.2.state = .archived t := by
    simp [Store.inUse, Slot.isArchived_iff]
  have holds : s.anyHold = false ↔ ∀ k : Fin 32, s.holds[k] = none := by
    simp [State.anyHold]
  rw [not_or, Bool.not_eq_true, Bool.not_eq_true, slots, holds]

theorem exec_configureStore_of_used (rq : Req) (n : Nat) {s : State} (h : s.store.inUse = true ∨ s.anyHold = true) :
    exec (.configureStore rq n) s = .next ((s.arrive (.configureStore rq n)).respond rq .state .nothing) :=
  congrArg Host.Outcome.next (if_pos (by
    rw [Bool.or_eq_true]
    exact h))

theorem exec_configureStore_of_free (rq : Req) (n : Nat) {s : State} (h : ¬ (s.store.inUse = true ∨ s.anyHold = true)) :
    exec (.configureStore rq n) s =
      .next (({ s.arrive (.configureStore rq n) with store := s.store.configured (storeCount n).val }.send
        (s.store.slots.map fun e : Nat × Slot => Instr.removeEntry e.2.svc e.1 e.2.start)).respondOk rq
          (decide ¬ n = (storeCount n).val)
          (.store (storeCount n).val ((storeCount n).val / 2) (min s.store.reserve0 (storeCount n).val)
            (min s.store.reserve1 (storeCount n).val) (min s.store.reserve2 (storeCount n).val))) := by
  have changed : (storeCount n).changed = decide ¬ n = (storeCount n).val := by
    show (!((storeCount n).val == n)) = _
    rw [beq_eq_decide, decide_not]
    exact congrArg (!·) (decide_eq_decide.mpr eq_comm)
  rw [← changed]
  exact congrArg Host.Outcome.next (if_neg (by
    rw [Bool.or_eq_true]
    exact h))

/-- R120: the nearest multiple of 4096 in range, the higher one half-way. -/
theorem storeCount_val {n count : Nat} (whole : 4096 ∣ count) (low : 4096 ≤ count) (high : count ≤ 65536)
    (nearest : n < 4096 ∧ count = 4096 ∨ 65536 < n ∧ count = 65536 ∨
      4096 ≤ n ∧ n ≤ 65536 ∧ count ≤ n + 2048 ∧ n < count + 2048) : (storeCount n).val = count := by
  obtain ⟨k, rfl⟩ := whole
  unfold storeCount
  dsimp only
  split
  · omega
  · split <;> omega

/-! ### SET RESERVES (R125) -/

theorem exec_setReserves_bad (rq : Req) {a : ReserveArgs} {s : State} (h : readReserveArgs s.store.slotCount a = none) :
    exec (.setReserves rq a) s = .next ((s.arrive (.setReserves rq a)).respond rq .badArgument .nothing) := by
  show Host.Outcome.next (match readReserveArgs s.store.slotCount a with
    | none => _
    | some r => _) = _
  rw [h] <;> rfl

theorem exec_setReserves_of_read (rq : Req) {a : ReserveArgs} {s : State} {r : Clamped ReserveSetting}
    (h : readReserveArgs s.store.slotCount a = some r) :
    exec (.setReserves rq a) s =
      .next ({ s.arrive (.setReserves rq a) with store := s.store.withReserves r.val }.testBacklog.respondOk rq r.changed
        (.reserves r.val.reserve0 r.val.reserve1 r.val.reserve2 r.val.threshold)) := by
  show Host.Outcome.next (match readReserveArgs s.store.slotCount a with
    | none => _
    | some r => _) = _
  rw [h] <;> rfl

theorem readReserveArgs_values {slots : Nat} (h : 1024 ≤ slots) (a b c threshold : Nat) :
    readReserveArgs slots ⟨.value a, .value b, .value c, .value threshold⟩ =
      let r2 := min c slots
      let r1 := max (min b slots) r2
      let r0 := max (min a slots) r1
      let th := max 1024 (min threshold slots)
      some ⟨⟨r0, r1, r2, th⟩, decide ¬ (r0 = a ∧ r1 = b ∧ r2 = c ∧ th = threshold)⟩ := by
  simp only [readReserveArgs, argGet, Option.bind_eq_bind, Option.bind_some, clampNat_val h, beq_eq_decide, decide_not,
    Bool.decide_and, Bool.and_assoc, Nat.min_comm slots threshold]

/-- A marker that is no value of a field has the arguments refused. -/
theorem readReserveArgs_of_bad {slots : Nat} {a : ReserveArgs}
    (h : BadMarked a.reserve0 ∨ BadMarked a.reserve1 ∨ BadMarked a.reserve2 ∨ BadMarked a.threshold) :
    readReserveArgs slots a = none := by
  refine Option.eq_none_iff_forall_ne_some.mpr fun r read => ?_
  obtain ⟨v0, r0, rest⟩ := Option.bind_eq_some_iff.mp read
  obtain ⟨v1, r1, rest⟩ := Option.bind_eq_some_iff.mp rest
  obtain ⟨v2, r2, rest⟩ := Option.bind_eq_some_iff.mp rest
  obtain ⟨v3, r3, _⟩ := Option.bind_eq_some_iff.mp rest
  rcases h with h | h | h | h
  · exact argGet_ne_bad r0 h
  · exact argGet_ne_bad r1 h
  · exact argGet_ne_bad r2 h
  · exact argGet_ne_bad r3 h

/-! ### The backlog test (R136) -/

theorem Store.backlogCount_eq (x : Store) : x.backlogCount = (x.slots.filter fun e => decide (e.2.state = .sealed)).length := by
  have test : (fun e : Nat × Slot => e.2.isSealed) = fun e => decide (e.2.state = .sealed) := funext fun e => beq_eq_decide ..
  rw [Store.backlogCount, Store.those, test]

section
variable {s : State}

theorem State.testBacklog_rises (normal : s.store.backlog = .normal) (h : s.store.threshold ≤ s.store.backlogCount) :
    s.testBacklog = { s with store := { s.store with backlog := .high } }.send
      [notice .backlogHigh none s.station.time (.backlog s.store.backlogCount s.store.threshold)] := by
  have test : s.store.testBacklog s.now =
      ({ s.store with backlog := .high }, [notice .backlogHigh none s.now (.backlog s.store.backlogCount s.store.threshold)]) := by
    unfold Store.testBacklog
    rw [normal]
    exact if_pos h
  rw [State.testBacklog, test]
  rfl

theorem State.testBacklog_falls (high : s.store.backlog = .high) (h : s.store.backlogCount ≤ s.store.threshold - 256) :
    s.testBacklog = { s with store := { s.store with backlog := .normal } }.send
      [notice .backlogNormal none s.station.time (.backlog s.store.backlogCount s.store.threshold)] := by
  have test : s.store.testBacklog s.now =
      ({ s.store with backlog := .normal }, [notice .backlogNormal none s.now (.backlog s.store.backlogCount s.store.threshold)]) := by
    unfold Store.testBacklog
    rw [high]
    exact if_pos h
  rw [State.testBacklog, test]
  rfl

theorem State.testBacklog_stays
    (h : s.store.backlog = .normal ∧ s.store.backlogCount < s.store.threshold ∨
      s.store.backlog = .high ∧ s.store.threshold - 256 < s.store.backlogCount) : s.testBacklog = s := by
  have test : s.store.testBacklog s.now = (s.store, []) := by
    unfold Store.testBacklog
    rcases h with ⟨normal, below⟩ | ⟨high, above⟩
    · rw [normal]
      exact if_neg (Nat.not_le.mpr below)
    · rw [high]
      exact if_neg (Nat.not_le.mpr above)
  rw [State.testBacklog, test]
  exact State.send_nil s

end

/-- Settles O39: the slot count by the nearest multiple, the reserves field by field, and the backlog against its threshold. -/
theorem storeIsConfiguredAndItsBacklogTested : Obligations.StoreIsConfiguredAndItsBacklogTested := by
  refine ⟨⟨fun s rq n count => ?_, fun s rq a b c threshold least => ?_⟩, fun s rq a => ?_, fun s => ?_⟩
  · intro c u x free
    refine ⟨fun used => ?_, fun unused whole low high nearest => ?_⟩
    · refine exec_configureStore_of_used rq n ?_
      by_contra h
      exact used (s.store_free_iff.mp h)
    · intro y
      rw [exec_configureStore_of_free rq n (s.store_free_iff.mpr unused), State.respondOk_decide_not,
        storeCount_val whole low high nearest]
      rfl
  · intro cmd x r2 r1 r0 th
    refine ⟨Nat.le_max_right .., Nat.le_max_right .., ?_⟩
    rw [exec_setReserves_of_read rq (readReserveArgs_values least a b c threshold), State.respondOk_decide_not]
    rfl
  · exact ⟨fun r read => exec_setReserves_of_read rq read, exec_setReserves_bad rq, readReserveArgs_of_bad, rfl, rfl, rfl, rfl⟩
  · have count := s.store.backlogCount_eq
    intro x backlog
    rw [show backlog = s.store.backlogCount from count.symm]
    exact ⟨State.testBacklog_rises, State.testBacklog_falls, fun normal below => State.testBacklog_stays (.inl ⟨normal, below⟩),
      fun high above => State.testBacklog_stays (.inr ⟨high, above⟩)⟩

/-! ### The slot of a new chunk (R126, R127, R139) -/

theorem lowestSeal_eq_none {l : List (Nat × Slot)} : lowestSeal l = none ↔ l = [] := by
  cases l with
  | nil => exact iff_of_true rfl rfl
  | cons e l =>
    refine iff_of_false ?_ (List.cons_ne_nil e l)
    unfold lowestSeal
    split
    · exact Option.some_ne_none e
    · split <;> exact Option.some_ne_none _

/-- Every slot from `n` up to the first that is free is listed. -/
theorem slotAt_of_lt_firstFree {n k : Nat} {l : List (Nat × Slot)} (h : risingSlots l = true) (low : n ≤ k) (high : k < firstFree n l) :
    slotAt k l ≠ none := by
  induction l generalizing n with
  | nil => exact absurd high (Nat.not_lt.mpr low)
  | cons e l ih =>
    obtain ⟨lower, rising⟩ := (risingSlots_cons e l).mp h
    unfold firstFree at high
    unfold slotAt
    split
    · exact Option.some_ne_none _
    · next apart =>
      split at high
      · next first => exact ih rising (Nat.lt_of_le_of_ne low (first ▸ apart)) high
      · split at high
        · exact ih rising low high
        · exact absurd high (Nat.not_lt.mpr low)

/-- A table in which no slot number is free lists as many slots as there are. -/
theorem slotCount_le_length {l : List (Nat × Slot)} {count : Nat} (h : risingSlots l = true)
    (full : ∀ k < count, slotAt k l ≠ none) : count ≤ l.length := by
  have listed : ∀ k ∈ List.range count, k ∈ l.map (·.1) := fun k hk => by
    obtain ⟨y, there⟩ := Option.ne_none_iff_exists'.mp (full k (List.mem_range.mp hk))
    exact List.mem_map.mpr ⟨(k, y), (slotAt_eq_some_iff h).mp there, rfl⟩
  have := (List.nodup_range.subperm listed).length_le
  rwa [List.length_range, List.length_map] at this

namespace Store

variable {x : Store} {r : ServiceRecord}

theorem reusableCount_eq (x : Store) :
    x.reusableCount = x.slotCount - x.slots.length + (x.slots.filter fun e => e.2.isReusable).length := rfl

theorem choose_exhausted (h : 2 ^ 32 - 1 ≤ x.sealCount) : x.choose r = .none := if_pos h

section
variable (count : x.sealCount < 2 ^ 32 - 1)
include count

theorem choose_of_count_lt :
    x.choose r = if x.reserveOf r.priority < x.reusableCount then x.chooseReusable else x.chooseOverwrite r.overwrite :=
  if_neg (Nat.not_le.mpr count)

theorem choose_of_free {n : Nat} (h : x.reserveOf r.priority < x.reusableCount) (first : firstFree 0 x.slots = n)
    (inside : n < x.slotCount) : x.choose r = .free n := by
  subst first
  rw [choose_of_count_lt count, if_pos h]
  exact if_pos inside

theorem choose_of_reusable (h : x.reserveOf r.priority < x.reusableCount) (full : x.slotCount ≤ firstFree 0 x.slots)
    {e : Nat × Slot} (low : lowestSeal (x.those Slot.isReusable) = some e) : x.choose r = .reuse e.1 e.2 := by
  rw [choose_of_count_lt count, if_pos h, chooseReusable]
  rw [if_neg (Nat.not_lt.mpr full), low]

theorem choose_of_overwritable (h : x.reusableCount ≤ x.reserveOf r.priority) (permitted : r.overwrite = true) {e : Nat × Slot}
    (low : lowestSeal (x.those Slot.isOverwritable) = some e) : x.choose r = .overwrite e.1 e.2 := by
  rw [choose_of_count_lt count, if_neg (Nat.not_lt.mpr h), chooseOverwrite, if_pos permitted, low]

theorem choose_of_none (h : x.reusableCount ≤ x.reserveOf r.priority)
    (no : r.overwrite = false ∨ lowestSeal (x.those Slot.isOverwritable) = none) : x.choose r = .none := by
  rw [choose_of_count_lt count, if_neg (Nat.not_lt.mpr h), chooseOverwrite]
  rcases no with off | empty
  · exact if_neg (by rw [off]; exact Bool.false_ne_true)
  · rw [empty]
    exact ite_self _

end

/-- Where the reserve lets a reusable slot be taken, and none is free, there is one to reuse. -/
theorem reusable_of_full (table : x.GoodTable) {reserve : Nat} (h : reserve < x.reusableCount)
    (full : x.slotCount ≤ firstFree 0 x.slots) : lowestSeal (x.those Slot.isReusable) ≠ none := by
  intro empty
  have listed : x.slotCount ≤ x.slots.length := slotCount_le_length table.1 fun k hk =>
    slotAt_of_lt_firstFree table.1 (Nat.zero_le k) (Nat.lt_of_lt_of_le hk full)
  have none : (x.those Slot.isReusable).length = 0 := by rw [lowestSeal_eq_none.mp empty, List.length_nil]
  have : x.reusableCount = x.slotCount - x.slots.length + (x.those Slot.isReusable).length := rfl
  omega

/-- What the choice of a slot comes to, and when. -/
inductive Chosen (x : Store) (r : ServiceRecord) : Choice → Prop
  | exhausted (h : 2 ^ 32 - 1 ≤ x.sealCount) : Chosen x r .none
  | free (n : Nat) (reserve : x.reserveOf r.priority < x.reusableCount) (first : firstFree 0 x.slots = n) (inside : n < x.slotCount) :
      Chosen x r (.free n)
  | reuse (e : Nat × Slot) (reserve : x.reserveOf r.priority < x.reusableCount) (full : x.slotCount ≤ firstFree 0 x.slots)
      (low : lowestSeal (x.those Slot.isReusable) = some e) : Chosen x r (.reuse e.1 e.2)
  | overwrite (e : Nat × Slot) (reserve : x.reusableCount ≤ x.reserveOf r.priority) (permitted : r.overwrite = true)
      (low : lowestSeal (x.those Slot.isOverwritable) = some e) : Chosen x r (.overwrite e.1 e.2)
  | gap (count : x.sealCount < 2 ^ 32 - 1) (reserve : x.reusableCount ≤ x.reserveOf r.priority)
      (no : r.overwrite = false ∨ lowestSeal (x.those Slot.isOverwritable) = none) : Chosen x r .none

theorem choose_chosen (table : x.GoodTable) (r : ServiceRecord) : Chosen x r (x.choose r) := by
  by_cases exhausted : 2 ^ 32 - 1 ≤ x.sealCount
  · exact choose_exhausted (r := r) exhausted ▸ .exhausted exhausted
  have count := Nat.not_le.mp exhausted
  by_cases reserve : x.reserveOf r.priority < x.reusableCount
  · by_cases inside : firstFree 0 x.slots < x.slotCount
    · exact choose_of_free count reserve rfl inside ▸ .free _ reserve rfl inside
    · have full := Nat.not_lt.mp inside
      obtain ⟨e, low⟩ := Option.ne_none_iff_exists'.mp (reusable_of_full table reserve full)
      exact choose_of_reusable count reserve full low ▸ .reuse e reserve full low
  · have reserve := Nat.not_lt.mp reserve
    by_cases no : r.overwrite = false ∨ lowestSeal (x.those Slot.isOverwritable) = none
    · exact choose_of_none count reserve no ▸ .gap count reserve no
    · obtain ⟨permitted, some⟩ := not_or.mp no
      obtain ⟨e, low⟩ := Option.ne_none_iff_exists'.mp some
      have on := Bool.not_eq_false _ ▸ permitted
      exact choose_of_overwritable count reserve on low ▸ .overwrite e reserve on low

/-- The entry found is in the table, satisfies the test, and has the lowest seal number of those that do. -/
theorem lowestSeal_those (table : x.GoodTable) {p : Slot → Bool} {q : Slot → Prop} (test : ∀ y, p y = true ↔ q y) {e : Nat × Slot}
    (low : lowestSeal (x.those p) = some e) :
    slotAt e.1 x.slots = some e.2 ∧ q e.2 ∧ ∀ f ∈ x.slots, q f.2 → e.2.sealNo.getD 0 ≤ f.2.sealNo.getD 0 := by
  obtain ⟨mem, holds⟩ := List.mem_filter.mp (lowestSeal_mem low)
  exact ⟨(slotAt_eq_some_iff table.1).mpr mem, (test e.2).mp holds,
    fun f hf holds => lowestSeal_le low f (List.mem_filter.mpr ⟨hf, (test f.2).mpr holds⟩)⟩

end Store

/-- Settles O40: the choice by the seal counter, the reserve, the free slots and the seal numbers. -/
theorem slotChoiceFollowsTheReserves : Obligations.SlotChoiceFollowsTheReserves := by
  intro x r table reserve archived reusable lowest
  have chosen := Store.choose_chosen table r
  have of_priority : reserve = x.reserveOf r.priority := rfl
  refine ⟨fun e _ => e.2.isReusable_iff, fun n choice => ?_, fun n y choice => ?_, fun n y choice => ?_, ?_⟩
  · rw [choice] at chosen
    obtain - | ⟨_, below, first, inside⟩ := chosen
    refine ⟨below, inside, ?_, fun k low => ?_⟩
    · exact first ▸ slotAt_firstFree table.1 fun _ _ => Nat.zero_le _
    · exact slotAt_of_lt_firstFree table.1 (Nat.zero_le k) (first.symm ▸ low)
  · rw [choice] at chosen
    obtain - | - | ⟨e, below, full, low⟩ := chosen
    obtain ⟨there, free, least⟩ := Store.lowestSeal_those table Slot.isReusable_iff low
    exact ⟨below, there, free, fun k hk => slotAt_of_lt_firstFree table.1 (Nat.zero_le k) (Nat.lt_of_lt_of_le hk full), least⟩
  · rw [choice] at chosen
    obtain - | - | - | ⟨e, above, permitted, low⟩ := chosen
    obtain ⟨there, free, least⟩ := Store.lowestSeal_those table Slot.isOverwritable_iff low
    exact ⟨above, permitted, there, free.1, free.2, least⟩
  · have none_iff : (∀ e ∈ x.slots, ¬ (e.2.state = .sealed ∧ e.2.holdCount = 0)) ↔
        lowestSeal (x.those Slot.isOverwritable) = none := by
      rw [lowestSeal_eq_none, Store.those, List.filter_eq_nil_iff]
      exact forall₂_congr fun e _ => not_congr e.2.isOverwritable_iff.symm
    rw [none_iff]
    constructor
    · intro choice
      rw [choice] at chosen
      cases chosen with
      | exhausted h => exact .inl h
      | gap count above no => exact .inr ⟨above, no⟩
    · rintro (exhausted | ⟨above, no⟩)
      · exact Store.choose_exhausted exhausted
      · by_cases exhausted : 2 ^ 32 - 1 ≤ x.sealCount
        · exact Store.choose_exhausted exhausted
        · exact Store.choose_of_none (Nat.not_le.mp exhausted) above no

end Sys2Proof.Machine
end

section
/-!
READ LOG, the hold table, and the messages to the clip index.
-/

namespace Sys2Proof.Machine

/-! ### READ LOG (R113, R116) -/

namespace Compliance

variable {x : Compliance} {n : Nat}

theorem readLogAnswer_zero : x.readLogAnswer 0 = (.badArgument, .nothing) := rfl

theorem readLogAnswer_gone (pos : 1 ≤ n) (old : n < x.oldestHeld) :
    x.readLogAnswer n = (.gone, .logGone x.oldestHeld x.lastWritten x.mark) := by
  have : n ≠ 0 := Nat.ne_of_gt pos
  rw [readLogAnswer, if_neg this, if_pos old]

theorem readLogAnswer_held {r : Record} (found : x.log.find? (·.seq == n) = some r) (pos : 1 ≤ n) (held : x.oldestHeld ≤ n) :
    x.readLogAnswer n = (.ok, .record r x.lastWritten x.mark) := by
  have : n ≠ 0 := Nat.ne_of_gt pos
  rw [readLogAnswer, if_neg this, if_neg (Nat.not_lt.mpr held), found]

theorem readLogAnswer_later (found : x.log.find? (·.seq == n) = none) (pos : 1 ≤ n) (held : x.oldestHeld ≤ n) :
    x.readLogAnswer n = (.notFound, .logNotFound x.lastWritten x.mark) := by
  have : n ≠ 0 := Nat.ne_of_gt pos
  rw [readLogAnswer, if_neg this, if_neg (Nat.not_lt.mpr held), found]

/-- R113: a sequence from the oldest held to the last written is that of a record in the log. -/
theorem Good.find?_held (h : x.Good) (low : x.oldestHeld ≤ n) (high : n ≤ x.lastWritten) :
    ∃ r ∈ x.log, r.seq = n ∧ x.log.find? (·.seq == n) = some r := by
  obtain ⟨length, _, seqs, _⟩ := h
  have oldest : max 1 (x.lastWritten - 4095) ≤ n := low
  have place : n + x.log.length - x.lastWritten - 1 < x.log.length := by omega
  have there := seqs _ place
  have here : (x.log[n + x.log.length - x.lastWritten - 1]).seq = n := by omega
  have found : (x.log.find? (·.seq == n)).isSome := List.find?_isSome.mpr ⟨_, List.getElem_mem place, beq_iff_eq.mpr here⟩
  obtain ⟨r, hr⟩ := Option.isSome_iff_exists.mp found
  exact ⟨r, List.mem_of_find?_eq_some hr, beq_iff_eq.mp (List.find?_some hr :), hr⟩

/-- No record has a sequence above the last written. -/
theorem Good.find?_later (h : x.Good) (high : x.lastWritten < n) : x.log.find? (·.seq == n) = none := by
  obtain ⟨_, _, seqs, _⟩ := h
  refine List.find?_eq_none.mpr fun r mem => ?_
  obtain ⟨k, hk, rfl⟩ := List.getElem_of_mem mem
  have := seqs k hk
  rw [beq_iff_eq]
  omega

end Compliance

theorem exec_readLog (rq : Req) (s : State) {n : Nat} {st : Status} {a : Answer} (h : s.compliance.readLogAnswer n = (st, a)) :
    exec (.readLog rq n) s = .next ((s.arrive (.readLog rq n)).respond rq st a) :=
  congrArg (fun w : Status × Answer => Host.Outcome.next ((s.arrive (.readLog rq n)).respond rq w.1 w.2)) h

/-- Settles O37: the sequence read against those that the log holds. -/
theorem readLogFindsHeldRecords : Obligations.ReadLogFindsHeldRecords := by
  intro s rq n good c u x oldest
  refine ⟨?_, fun pos gone => exec_readLog rq s (Compliance.readLogAnswer_gone pos gone), fun held written => ?_, fun later pos => ?_⟩
  · rintro rfl
    exact exec_readLog rq s Compliance.readLogAnswer_zero
  · obtain ⟨r, mem, seq, found⟩ := Compliance.Good.find?_held good held written
    have pos : 1 ≤ n := (Nat.le_max_left ..).trans held
    exact ⟨r, mem, seq, exec_readLog rq s (Compliance.readLogAnswer_held found pos held)⟩
  · have held : s.compliance.oldestHeld ≤ n := by
      have : x.lastWritten < n := later
      show max 1 (x.lastWritten - 4095) ≤ n
      omega
    exact exec_readLog rq s (Compliance.readLogAnswer_later (Compliance.Good.find?_later good later) pos held)

/-! ### The hold table (R144 to R150) -/

theorem freeEntry_of_first {t : Vector (Option Hold) 32} {n : Fin 32} (free : t[n] = none) (first : ∀ k : Fin 32, k < n → t[k] ≠ none) :
    freeEntry t = some n := by
  rw [freeEntry, List.find?_eq_findSome?_guard]
  refine findSome?_eq_some_of_first (List.pairwise_lt_finRange 32) (List.mem_finRange n) ?_ fun k _ below => ?_
  · simp [Option.guard, free]
  · obtain ⟨h, live⟩ := Option.ne_none_iff_exists'.mp (first k below)
    simp only [Fin.getElem_fin] at live
    simp [Option.guard, live]

theorem freeEntry_of_full {t : Vector (Option Hold) 32} (full : ∀ k : Fin 32, t[k] ≠ none) : freeEntry t = none := by
  refine List.find?_eq_none.mpr fun k _ => ?_
  obtain ⟨h, live⟩ := Option.ne_none_iff_exists'.mp (full k)
  rw [live]
  exact Bool.false_ne_true

/-- R145: a hold covers a slot whose chunk its span overlaps. -/
theorem Hold.covers_eq (h : Hold) (x : Slot) :
    h.covers x = decide (x.svc = h.svc ∧ h.fromMi < x.start + 20 ∧ x.start < h.toMi) := by
  rw [Hold.covers, Hold.overlaps, beq_eq_decide, Bool.decide_and, Bool.decide_and]
  rfl

theorem Store.countHold_eq (x : Store) (h : Hold) (f : Nat → Nat) :
    x.countHold h f =
      { x with
        slots := x.slots.map fun e : Nat × Slot =>
          if decide (e.2.svc = h.svc ∧ h.fromMi < e.2.start + 20 ∧ e.2.start < h.toMi) = true then
            (e.1, { e.2 with holdCount := f e.2.holdCount })
          else e } := by
  rw [Store.countHold, funext h.covers_eq]

theorem Store.heldSlots_eq (x : Store) (h : Hold) :
    x.heldSlots h =
      (x.slots.filter fun e : Nat × Slot =>
        decide (e.2.svc = h.svc ∧ h.fromMi < e.2.start + 20 ∧ e.2.start < h.toMi)).length := by
  rw [Store.heldSlots, Store.those, funext h.covers_eq]

section
variable (s : State) (rq : Req)

theorem exec_createHold (i : Svc) (a b : Mi) :
    exec (.createHold rq i.val a b) s =
      .next (if b ≤ a then (s.arrive (.createHold rq i.val a b)).respond rq .badArgument .nothing
        else match freeEntry s.holds with
          | none => (s.arrive (.createHold rq i.val a b)).respond rq .full .nothing
          | some n =>
            ((s.arrive (.createHold rq i.val a b)).createHold n ⟨i, a, b, .console, false⟩).respond rq .ok
              (.holdCreated n (s.store.heldSlots ⟨i, a, b, .console, false⟩))) := by
  refine congrArg Host.Outcome.next ?_
  dsimp only
  rw [asFin_val]
  rfl

theorem exec_createHold_bad {n : Nat} (h : 16 ≤ n) (a b : Mi) :
    exec (.createHold rq n a b) s = .next ((s.arrive (.createHold rq n a b)).respond rq .badArgument .nothing) := by
  refine congrArg Host.Outcome.next ?_
  dsimp only
  rw [asFin_eq_none.mpr h]
  rfl

/-- RELEASE HOLD and FIX HOLD of a hold number that there is not. -/
theorem exec_holdNumber_bad {n : Nat} (h : 32 ≤ n) :
    exec (.releaseHold rq n) s = .next ((s.arrive (.releaseHold rq n)).respond rq .badArgument .nothing) ∧
    exec (.fixHold rq n) s = .next ((s.arrive (.fixHold rq n)).respond rq .badArgument .nothing) := by
  constructor
  all_goals
    refine congrArg Host.Outcome.next ?_
    rw [asFin_eq_none.mpr h]
    rfl

theorem exec_releaseHold (k : Fin 32) :
    exec (.releaseHold rq k.val) s =
      .next (match s.holds[k] with
        | none => (s.arrive (.releaseHold rq k.val)).respond rq .notFound .nothing
        | some h =>
          if h.fixed then (s.arrive (.releaseHold rq k.val)).respond rq .fixed .nothing
          else ((s.arrive (.releaseHold rq k.val)).freeHold k h).respond rq .ok (.holdReleased (s.store.heldSlots h))) := by
  refine congrArg Host.Outcome.next ?_
  rw [asFin_val]
  rfl

theorem exec_fixHold (k : Fin 32) :
    exec (.fixHold rq k.val) s =
      .next (match s.holds[k] with
        | none => (s.arrive (.fixHold rq k.val)).respond rq .notFound .nothing
        | some h =>
          { s.arrive (.fixHold rq k.val) with holds := s.holds.set k (some { h with fixed := true }) }.respond rq .ok .nothing) := by
  refine congrArg Host.Outcome.next ?_
  rw [asFin_val]
  rfl

theorem exec_automaticHoldRequest (i : Svc) (a b : Mi) (seq : Nat) :
    exec (.automaticHoldRequest i a b seq) s =
      .next (match freeEntry s.holds with
        | none => (s.arrive (.automaticHoldRequest i a b seq)).send [notice .holdTableFull (some i) s.station.time (.sequence seq), .holdAnswer none]
        | some n =>
          ((s.arrive (.automaticHoldRequest i a b seq)).createHold n ⟨i, a, b, .automatic seq, false⟩).send [.holdAnswer (some n)]) := rfl

end

/-- Settles O45: the lowest free entry, and the hold counts of the slots that a hold covers. -/
theorem holdsAreCreatedReleasedAndFixed : Obligations.HoldsAreCreatedReleasedAndFixed := by
  refine ⟨fun s rq i a b seq => ?_, fun s rq n => ?_⟩
  · intro c d isCovered created
    refine ⟨fun bad => ?_, fun n bad => exec_createHold_bad s rq bad a b, fun full => ⟨fun good => ?_, ?_⟩, fun n free first => ⟨fun good => ?_, ?_⟩⟩
    · rw [exec_createHold, if_pos bad]
    · rw [exec_createHold, if_neg (Nat.not_le.mpr good), freeEntry_of_full full]
    · rw [exec_automaticHoldRequest, freeEntry_of_full full]
    · rw [exec_createHold, if_neg (Nat.not_le.mpr good), freeEntry_of_first free first]
      simp only [State.createHold, Store.countHold_eq, Store.heldSlots_eq]
      rfl
    · rw [exec_automaticHoldRequest, freeEntry_of_first free first]
      simp only [State.createHold, Store.countHold_eq]
      rfl
  · intro c d
    refine ⟨exec_holdNumber_bad s rq, ?_⟩
    rintro k rfl
    refine ⟨fun free => ⟨?_, ?_⟩, fun h live => ?_⟩
    · rw [exec_releaseHold, free]
    · rw [exec_fixHold, free]
    · intro isCovered
      refine ⟨fun fixed => ?_, fun fixed => ?_, ?_⟩
      · rw [exec_releaseHold, live]
        simp only [fixed, if_true]
        rfl
      · rw [exec_releaseHold, live]
        simp only [fixed, State.freeHold, Store.countHold_eq, Store.heldSlots_eq]
        rfl
      · rw [exec_fixHold, live]

/-! ### The clip index (R153 to R155) -/

namespace ClipIndex

variable {x : ClipIndex} {i : Svc} {m : Mi}

theorem lists_setList (x : ClipIndex) (i k : Svc) (l : List ClipEntry) :
    (x.setList i l).lists[k] = if k = i then l else x.lists[k] := by
  by_cases e : k = i
  · subst e
    simp [setList]
  · have ne : (i : Nat) ≠ k := fun h => e (Fin.ext h.symm)
    simp [setList, e, ne]

theorem leavePool_pool (x : ClipIndex) (i : Svc) (m : Mi) :
    (x.leavePool i m).pool = x.pool.filter fun q => decide (q ≠ (i, m)) := by
  refine congrArg (x.pool.filter ·) (funext fun q => ?_)
  rw [beq_eq_decide, beq_eq_decide, ← Bool.decide_and, decide_not, decide_eq_decide.mpr (Prod.ext_iff (x := q) (y := (i, m)))]

theorem roomed_pool (x : ClipIndex) : x.roomed.pool = if 2048 ≤ x.pool.length then x.pool.tail else x.pool := by
  unfold roomed poolPlaces
  split
  · unfold dropOldest
    split
    · next empty => rw [empty, List.tail_nil]
    · next p ps pool => rw [pool, List.tail_cons]
  · rfl

/-- R155: the oldest entry of the pool leaves its list, and no other. -/
theorem mem_dropOldest (x : ClipIndex) (k : Svc) (e : ClipEntry) :
    e ∈ x.dropOldest.lists[k] ↔ e ∈ x.lists[k] ∧ x.pool.head? ≠ some (k, e.start) := by
  unfold dropOldest
  split
  · next empty => simp [empty]
  · next p ps pool =>
    have oldest : x.pool.head? = some (k, e.start) ↔ p.1 = k ∧ p.2 = e.start := by
      rw [pool, List.head?_cons, Option.some.injEq, Prod.ext_iff]
    have lists := lists_setList x p.1 k (x.lists[p.1].filter fun e => e.start != p.2)
    rw [setList] at lists
    rw [ne_eq, oldest, lists]
    split
    · next here =>
      subst here
      rw [List.mem_filter, bne_iff_ne, ne_comm, and_iff_right rfl]
    · next apart =>
      have : ¬ p.1 = k := fun h => apart h.symm
      simp [this]

theorem mem_roomed (x : ClipIndex) (k : Svc) (e : ClipEntry) :
    e ∈ x.roomed.lists[k] ↔ e ∈ x.lists[k] ∧ ¬ (2048 ≤ x.pool.length ∧ x.pool.head? = some (k, e.start)) := by
  unfold roomed poolPlaces
  split
  · next full =>
    rw [mem_dropOldest, and_iff_right full]
  · next room => exact (and_iff_left fun h => room h.1).symm

/-- R153: an entry placed in the list of service `i`. -/
theorem mem_setList_place (rising : (x.lists[i]).Pairwise fun a b => a.start < b.start) (e f : ClipEntry) (k : Svc) :
    f ∈ (x.setList i (placeEntry e x.lists[i])).lists[k] ↔
      (k = i ∧ f = e) ∨ (f ∈ x.lists[k] ∧ ¬ (k = i ∧ f.start = e.start)) := by
  rw [lists_setList]
  split
  · next here =>
    subst here
    rw [mem_placeEntry_iff rising]
    simp
  · next apart => simp [apart]

theorem mem_remove (x : ClipIndex) (i k : Svc) (n : Nat) (m : Mi) (e : ClipEntry) :
    e ∈ (x.remove i n m).lists[k] ↔ e ∈ x.lists[k] ∧ ¬ (k = i ∧ e = ⟨m, .stored n⟩) := by
  rw [remove, lists_setList]
  split
  · next here =>
    subst here
    simp
  · next apart => simp [apart]

theorem hasStored_iff (x : ClipIndex) (i : Svc) (n : Nat) (m : Mi) : x.hasStored i n m = true ↔ (⟨m, .stored n⟩ : ClipEntry) ∈ x.lists[i] := by
  simp [hasStored]

/-- R154: in a rising list the entry marked LOST stands in the place of the one at its start. -/
theorem mem_map_lost {l : List ClipEntry} (rising : l.Pairwise fun a b => a.start < b.start) {n : Nat} {m : Mi}
    (stored : (⟨m, .stored n⟩ : ClipEntry) ∈ l) (e : ClipEntry) :
    e ∈ l.map (fun e => if e = ⟨m, .stored n⟩ then ⟨m, .lost⟩ else e) ↔ e = ⟨m, .lost⟩ ∨ (e ∈ l ∧ e.start ≠ m) := by
  rw [List.mem_map]
  constructor
  · rintro ⟨f, mem, eq⟩
    split at eq
    · exact .inl eq.symm
    · next other =>
      subst eq
      exact .inr ⟨mem, fun same => other (eq_of_start rising mem stored same)⟩
  · rintro (rfl | ⟨mem, other⟩)
    · exact ⟨_, stored, if_pos rfl⟩
    · refine ⟨e, mem, if_neg ?_⟩
      rintro rfl
      exact other rfl

/-- A STORED entry does not leave its list with the oldest of the pool. -/
theorem Good.not_dropped (h : x.Good) {n : Nat} (stored : (⟨m, .stored n⟩ : ClipEntry) ∈ x.lists[i]) :
    ¬ (2048 ≤ x.pool.length ∧ x.pool.head? = some (i, m)) := by
  rintro ⟨_, head⟩
  obtain ⟨rising, _, _, pooled⟩ := h
  rcases (pooled i m).mp (List.mem_of_head? head) with mem | mem <;> cases eq_of_start (rising i) mem stored rfl

end ClipIndex

/-- Settles O46: each message by the list it changes and what leaves or joins the pool. -/
theorem clipIndexMessages : Obligations.ClipIndexMessages := by
  intro s i n m good x left dropped room becomes
  have risingAfterLeave := (good.leavePool i m)
  have leftPool : (x.leavePool i m).pool = left := x.leavePool_pool i m
  refine ⟨⟨x.appendStored i n m, rfl, leftPool, fun k e => ?_, (good.appendStored i n m).1⟩,
    ⟨x.appendGap i m, rfl, ?_, fun k e => ?_, (good.appendGap i m).1⟩,
    ⟨x.remove i n m, rfl, rfl, fun k e => x.mem_remove i k n m e, (good.remove i n m).1⟩, fun stored => ?_, fun other => ?_⟩
  · exact ClipIndex.mem_setList_place (x := x.leavePool i m) (good.1 i) ⟨m, .stored n⟩ e k
  · show (x.leavePool i m).roomed.pool ++ [(i, m)] = room left ++ [(i, m)]
    rw [ClipIndex.roomed_pool, leftPool]
  · have mem := (x.leavePool i m).mem_roomed k e
    rw [leftPool] at mem
    have placed := ClipIndex.mem_setList_place (x := (x.leavePool i m).joinPool i m) (risingAfterLeave.roomed.1.rising i) ⟨m, .gap⟩ e k
    refine placed.trans (or_congr Iff.rfl ?_)
    rw [show (e ∈ ((x.leavePool i m).joinPool i m).lists[k]) ↔ _ from mem]
    exact and_right_comm.trans and_assoc
  · refine ⟨x.markLost i n m, rfl, ?_, fun k e => ?_, (good.markLost i n m).1⟩
    · rw [ClipIndex.markLost, if_pos ((x.hasStored_iff i n m).mpr stored)]
      show x.roomed.pool ++ [(i, m)] = room x.pool ++ [(i, m)]
      rw [ClipIndex.roomed_pool]
    · have kept : (⟨m, .stored n⟩ : ClipEntry) ∈ x.roomed.lists[i] := (x.mem_roomed i _).mpr ⟨stored, good.not_dropped stored⟩
      have rising := (good.leavePool i m).rising
      have pool : (i, m) ∉ x.pool := by
        rw [good.2.2.2 i m]
        rintro (mem | mem) <;> cases ClipIndex.eq_of_start (good.1 i) mem stored rfl
      have roomedRising : (x.roomed.lists[i]).Pairwise fun a b => a.start < b.start :=
        (ClipIndex.GoodBut.mk good.1 good.2.1 good.2.2.1 pool fun j m _ => good.2.2.2 j m).roomed.1.rising i
      rw [ClipIndex.markLost, if_pos ((x.hasStored_iff i n m).mpr stored), ClipIndex.lists_setList]
      have mem := x.mem_roomed k e
      split
      · next here =>
        subst here
        refine (ClipIndex.mem_map_lost roomedRising kept e).trans ?_
        refine or_congr (and_iff_right rfl).symm ?_
        rw [mem, and_iff_right rfl]
        exact and_right_comm.trans and_assoc
      · next apart =>
        refine mem.trans ?_
        simp [apart, dropped]
  · have absent : ¬ x.hasStored i n m = true := fun h => other ((x.hasStored_iff i n m).mp h)
    exact congrArg (fun y => Host.Outcome.next { s.arrive (.markLost i n m) with clips := y }) (if_neg absent)

end Sys2Proof.Machine
end

section
/-!
The archive queue (chapter 9): takes, how they end, and their timers.
-/

namespace Sys2Proof.Machine

/-! ### TAKE (R159) -/

/-- In a table the entry with a seal number below all others is the lowest. -/
theorem lowestSeal_eq_of_lt {l : List (Nat × Slot)} {e : Nat × Slot} (mem : e ∈ l)
    (least : ∀ f ∈ l, f ≠ e → e.2.sealNo.getD 0 < f.2.sealNo.getD 0) : lowestSeal l = some e := by
  obtain ⟨f, low⟩ := Option.ne_none_iff_exists'.mp fun h => List.ne_nil_of_mem mem (lowestSeal_eq_none.mp h)
  by_cases same : f = e
  · rw [low, same]
  · exact absurd (lowestSeal_le low e mem) (Nat.not_le.mpr (least f (lowestSeal_mem low) same))

theorem Store.queueHead_eq_none (x : Store) : x.queueHead = none ↔ ∀ e ∈ x.slots, e.2.state ≠ .sealed := by
  rw [Store.queueHead, lowestSeal_eq_none, Store.those, List.filter_eq_nil_iff]
  exact forall₂_congr fun e _ => not_congr e.2.isSealed_iff

theorem Store.inTransferCount_eq (x : Store) :
    (x.those Slot.isInTransfer).length = (x.slots.filter fun e => decide (e.2.state = .inTransfer)).length :=
  congrArg (fun p => (x.slots.filter p).length) (funext fun _ => beq_eq_decide ..)

section
variable (rq : Req) {arg : Arg Nat} (s : State)

theorem exec_take_bad (h : takeDuration arg = none) :
    exec (.take rq arg) s = .next ((s.arrive (.take rq arg)).respond rq .badArgument .nothing) := by
  refine congrArg Host.Outcome.next ?_
  rw [h]
  rfl

theorem exec_take {d : Clamped Nat} (h : takeDuration arg = some d) :
    exec (.take rq arg) s =
      .next (if 8 ≤ (s.store.those Slot.isInTransfer).length then (s.arrive (.take rq arg)).respond rq .full .nothing
        else match s.store.queueHead with
          | none => (s.arrive (.take rq arg)).respond rq .empty .nothing
          | some e =>
            ((s.arrive (.take rq arg)).handOut e.1 d.val).testBacklog.respondOk rq d.changed (.take (s.takeView e.1 e.2 d.val))) := by
  refine congrArg Host.Outcome.next ?_
  rw [h]
  rfl

end

/-! ### The take of a slot under its token (R158) -/

namespace State

variable {s : State} {n token : Nat}

theorem takeOf_eq (a : Archive) (n : Nat) : a.takeOf n = a.takes.find? fun t => decide (t.slot = n) :=
  congrArg (a.takes.find? ·) (funext fun _ => beq_eq_decide ..)

theorem matchedTake_of {t : Take} {y : Slot} (take : s.archive.takeOf n = some t) (same : t.token = token)
    (there : slotAt n s.store.slots = some y) (flies : y.state = .inTransfer) : s.matchedTake n token = some (t, y) := by
  have test : (y.isInTransfer && t.token == token) = true := by
    rw [Bool.and_eq_true, beq_iff_eq]
    exact ⟨beq_iff_eq.mpr flies, same⟩
  rw [matchedTake, take, there]
  exact if_pos test

theorem matchedTake_of_other (h : ∀ t ∈ s.archive.takes, ¬ (t.slot = n ∧ t.token = token)) : s.matchedTake n token = none := by
  unfold matchedTake
  split
  · next t y take _ =>
    have slot : t.slot = n := beq_iff_eq.mp (List.find?_some take :)
    refine if_neg fun test => h t (List.mem_of_find?_eq_some take) ⟨slot, ?_⟩
    exact beq_iff_eq.mp ((Bool.and_eq_true _ _).mp test).2
  · rfl

theorem matchedTake_of_state {y : Slot} (there : slotAt n s.store.slots = some y) (h : y.state ≠ .inTransfer) :
    s.matchedTake n token = none := by
  unfold matchedTake
  rw [there]
  split
  · next z _ slot =>
    obtain rfl := Option.some.inj slot
    exact if_neg fun test => h (beq_iff_eq.mp ((Bool.and_eq_true _ _).mp test).1)
  · rfl

theorem confirmedToken_eq_some_iff : s.confirmedToken n = some token ↔ ∃ y, slotAt n s.store.slots = some y ∧ y.state = .archived token := by
  unfold confirmedToken
  cases slotAt n s.store.slots with
  | none => simp
  | some y =>
    dsimp only
    cases state : y.state <;> simp [state]

theorem endTake_eq {y : Slot} (there : slotAt n s.store.slots = some y) (state : SlotState) :
    s.endTake n state =
      { s with
        archive := { s.archive with takes := s.archive.takes.filter fun t => decide (t.slot ≠ n) }
        store := { s.store with slots := putSlot n { y with state := state } s.store.slots } } := by
  have test : (fun t : Take => t.slot != n) = fun t => decide (t.slot ≠ n) := funext fun t => by
    rw [bne, beq_eq_decide, decide_not]
  rw [endTake, Archive.endTake, test, Work.update_of_slotAt there]

end State

section
variable (rq : Req) (s : State) (n token : Nat)

theorem exec_readChunk_bad {length : Nat} (h : s.store.slotCount ≤ n ∨ length = 0 ∨ 4096 < length) (offset : Nat) :
    exec (.readChunk rq n token offset length) s =
      .next ((s.arrive (.readChunk rq n token offset length)).respond rq .badArgument .nothing) := by
  refine congrArg Host.Outcome.next (if_pos (h.imp_right fun h => ?_))
  rw [readable, Bool.and_eq_false_iff, decide_eq_false_iff_not, decide_eq_false_iff_not]
  omega

theorem exec_readChunk {length : Nat} (hn : n < s.store.slotCount) (pos : 1 ≤ length) (short : length ≤ 4096) (offset : Nat) :
    exec (.readChunk rq n token offset length) s =
      .next (match s.matchedTake n token with
        | none => (s.arrive (.readChunk rq n token offset length)).respond rq .tooLate .nothing
        | some (t, y) =>
          (s.arrive (.readChunk rq n token offset length)).respond rq .ok
            (.chunk y.sealNo y.length t.remaining (payloadRead y offset length))) := by
  refine congrArg Host.Outcome.next (if_neg ?_)
  have : 0 < length := pos
  rintro (h | h)
  · exact Nat.not_le.mpr hn h
  · simp [readable, this, short] at h

theorem exec_confirm_bad (h : s.store.slotCount ≤ n) :
    exec (.confirm rq n token) s = .next ((s.arrive (.confirm rq n token)).respond rq .badArgument .nothing) :=
  congrArg Host.Outcome.next (if_pos h)

theorem exec_confirm (hn : n < s.store.slotCount) :
    exec (.confirm rq n token) s =
      .next (match s.matchedTake n token with
        | some _ => ((s.arrive (.confirm rq n token)).endTake n (.archived token)).respond rq .ok (.repeated false)
        | none =>
          if s.confirmedToken n = some token then (s.arrive (.confirm rq n token)).respond rq .ok (.repeated true)
          else (s.arrive (.confirm rq n token)).respond rq .tooLate .nothing) :=
  congrArg Host.Outcome.next (if_neg (Nat.not_le.mpr hn))

theorem exec_returnTake_bad (h : s.store.slotCount ≤ n) :
    exec (.returnTake rq n token) s = .next ((s.arrive (.returnTake rq n token)).respond rq .badArgument .nothing) :=
  congrArg Host.Outcome.next (if_pos h)

theorem exec_returnTake (hn : n < s.store.slotCount) :
    exec (.returnTake rq n token) s =
      .next (match s.matchedTake n token with
        | none => (s.arrive (.returnTake rq n token)).respond rq .tooLate .nothing
        | some _ => ((s.arrive (.returnTake rq n token)).endTake n .sealed).testBacklog.respond rq .ok .nothing) :=
  congrArg Host.Outcome.next (if_neg (Nat.not_le.mpr hn))

end

/-- Settles O47: TAKE by the takes in flight and the queue, the others by the take of the slot under its token. -/
theorem takesAreHandedOutReadAndEnded : Obligations.TakesAreHandedOutReadAndEnded := by
  refine ⟨fun s rq arg bad => exec_take_bad rq s ?_, fun s rq arg d good => ?_, fun s rq n token offset length => ?_⟩
  · rcases bad with rfl | rfl <;> rfl
  · intro c u x inTransfer duration token
    have read : takeDuration arg = some (clampNat 10 36000 d) := by
      rcases good with rfl | ⟨rfl, rfl⟩ <;> rfl
    have value : (clampNat 10 36000 d).val = duration := clampNat_val (by decide) d
    have changed : (clampNat 10 36000 d).changed = decide ¬ duration = d := by
      rw [Bool.eq_iff_iff, clampNat_changed_eq (by decide), value, decide_eq_true_iff]
    have flying : (s.store.those Slot.isInTransfer).length = inTransfer := s.store.inTransferCount_eq
    rw [exec_take rq s read, flying, changed, value]
    refine ⟨fun full => ?_, fun room none => ?_, fun n y k room table mem state number least => ?_⟩
    · rw [if_pos full]
    · rw [if_neg (Nat.not_le.mpr room), s.store.queueHead_eq_none.mpr none]
    · have head : s.store.queueHead = some (n, y) := by
        refine lowestSeal_eq_of_lt (List.mem_filter.mpr ⟨mem, y.isSealed_iff.mpr state⟩) fun f hf other => ?_
        obtain ⟨inTable, isSealed⟩ := List.mem_filter.mp hf
        show y.sealNo.getD 0 < _
        rw [number]
        exact least f inTable (f.2.isSealed_iff.mp isSealed) other
      have there : slotAt n s.store.slots = some y := (slotAt_eq_some_iff table.1).mpr mem
      rw [if_neg (Nat.not_le.mpr room), head]
      dsimp only
      rw [State.respondOk_decide_not, State.handOut]
      have handed := Work.update_of_slotAt (x := s.store) there fun y => { y with state := .inTransfer }
      rw [show (s.arrive (.take rq arg)).store.update n (fun y => { y with state := .inTransfer }) = _ from handed]
      have shown : s.takeView n y duration =
          ⟨n, token, some k, y.svc, y.start, y.length, y.cutShort, y.fillFrames, y.holdCount, duration⟩ := by
        rw [State.takeView, number]
        rfl
      rw [shown]
      rfl
  · intro cr cc ct ended bad late
    refine ⟨fun out => ⟨exec_readChunk_bad rq s n token (.inl out) offset, exec_confirm_bad rq s n token out,
      exec_returnTake_bad rq s n token out⟩, fun size => exec_readChunk_bad rq s n token (.inr size) offset, fun inside => ⟨?_, ?_, ?_⟩⟩
    · intro t y take same there flies
      have matched : s.matchedTake n token = some (t, y) :=
        State.matchedTake_of ((State.takeOf_eq s.archive n).trans take) same there flies
      refine ⟨fun pos short => ?_, ?_, ?_⟩
      · rw [exec_readChunk rq s n token inside pos short, matched]
        rfl
      · rw [exec_confirm rq s n token inside, matched]
        dsimp only
        rw [State.endTake_eq (s := s.arrive (.confirm rq n token)) there]
        rfl
      · rw [exec_returnTake rq s n token inside, matched]
        dsimp only
        rw [State.endTake_eq (s := s.arrive (.returnTake rq n token)) there]
        rfl
    · intro y there state
      have gone : s.matchedTake n token = none := State.matchedTake_of_state there (by
        rw [state]
        nofun)
      rw [exec_confirm rq s n token inside, gone]
      exact congrArg Host.Outcome.next (if_pos (State.confirmedToken_eq_some_iff.mpr ⟨y, there, state⟩))
    · intro other
      have gone : s.matchedTake n token = none := State.matchedTake_of_other other
      refine ⟨fun pos short => ?_, ?_, fun notConfirmed => ?_⟩
      · show exec cr s = _
        rw [exec_readChunk rq s n token inside pos short, gone]
      · show exec ct s = _
        rw [exec_returnTake rq s n token inside, gone]
      · show exec cc s = _
        rw [exec_confirm rq s n token inside, gone]
        refine congrArg Host.Outcome.next (if_neg fun confirmed => ?_)
        obtain ⟨y, there, state⟩ := State.confirmedToken_eq_some_iff.mp confirmed
        exact notConfirmed y there state

end Sys2Proof.Machine
end

section
/-!
Take timers (R164): what the takes that expire at a period edge leave, one after the other.
-/

namespace Sys2Proof.Machine

/-! ### The backlog and the backlog test -/

/-- R136: a slot that is SEALED in the place of one that was not adds one to the backlog. -/
theorem sealed_putSlot {l : List (Nat × Slot)} {n : Nat} {y z : Slot} (rising : risingSlots l = true) (there : slotAt n l = some y)
    (was : y.isSealed = false) (is : z.isSealed = true) :
    ((putSlot n z l).filter fun e => e.2.isSealed).length = (l.filter fun e => e.2.isSealed).length + 1 := by
  induction l with
  | nil => cases there
  | cons e l ih =>
    obtain ⟨below, rising⟩ := (risingSlots_cons e l).mp rising
    unfold slotAt at there
    unfold putSlot
    by_cases here : e.1 = n
    · rw [if_pos here] at there
      obtain rfl := Option.some.inj there
      rw [if_neg (Nat.not_lt.mpr (Nat.le_of_eq here.symm)), if_pos here, List.filter_cons_of_pos (by exact is),
        List.filter_cons_of_neg (by rw [was]; exact Bool.false_ne_true), List.length_cons]
    · rw [if_neg here] at there
      have mem := (slotAt_eq_some_iff rising).mp there
      rw [if_pos (below _ mem), List.filter_cons, List.filter_cons]
      split
      · rw [List.length_cons, List.length_cons, ih rising there]
      · exact ih rising there

namespace State

/-- The backlog test changes the backlog state, and what is under way. -/
theorem testBacklog_eq (s : State) :
    s.testBacklog = { s with
      store := { s.store with backlog := s.testBacklog.store.backlog }
      inFlight := s.testBacklog.inFlight } := by
  show _ = ({ s with
    store := { s.store with backlog := (s.store.testBacklog s.now).1.backlog }, inFlight := s.testBacklog.inFlight } : State)
  rw [← Store.testBacklog_eq]
  rfl

/-! ### A take that expires -/

variable (begun : Option Mi)

/-- R164: what a take that expires sends, by the slot it stands in. -/
def timeout (t : Take) : Option Slot → List Instr
  | none => []
  | some y => [.counterIncrement .archiveTimeouts, notice .archiveTimeout (some y.svc) begun (.take t.slot t.token)]

/-- R164: a take of slot `y` has ended, before the backlog is tested. -/
def returned (s : State) (t : Take) (y : Slot) : State :=
  { s with
    archive := { s.archive with takes := s.archive.takes.filter fun q => decide (q.slot ≠ t.slot) }
    store := { s.store with slots := putSlot t.slot { y with state := .sealed } s.store.slots } }.send (timeout begun t (some y))

theorem expireTake_of_slot {s : State} {t : Take} {y : Slot} (there : slotAt t.slot s.store.slots = some y) :
    s.expireTake begun t = (s.returned begun t y).testBacklog := by
  rw [expireTake, there]
  dsimp only
  rw [returnSlot, endTake_eq there]
  rfl

/-- Takes whose slots are IN_TRANSFER, each its own. -/
structure Expiring (s : State) (l : List Take) : Prop where
  table : s.store.GoodTable
  nodup : (l.map (·.slot)).Nodup
  flies : ∀ t ∈ l, TransfersAt s.store.slots t.slot

/-- What a take that expires leaves of the slots. -/
def sealedAt (gone : List Nat) (n : Nat) (y : Slot) : Slot := if n ∈ gone then { y with state := .sealed } else y

section
variable {s : State} {t : Take} {l : List Take} {begun}

theorem Expiring.head (h : s.Expiring (t :: l)) : ∃ y, slotAt t.slot s.store.slots = some y ∧ y.state = .inTransfer :=
  h.flies t List.mem_cons_self

theorem Expiring.apart (h : s.Expiring (t :: l)) {u : Take} (hu : u ∈ l) : u.slot ≠ t.slot := fun e =>
  (List.nodup_cons.mp h.nodup).1 (List.mem_map.mpr ⟨u, hu, e⟩)

theorem slotAt_expireTake {y : Slot} (there : slotAt t.slot s.store.slots = some y) (n : Nat) :
    slotAt n (s.expireTake begun t).store.slots = (slotAt n s.store.slots).map (sealedAt [t.slot] n) := by
  rw [expireTake_of_slot begun there, testBacklog_eq]
  show slotAt n (putSlot t.slot { y with state := .sealed } s.store.slots) = _
  by_cases here : n = t.slot
  · subst here
    rw [slotAt_putSlot_same, there]
    simp [sealedAt]
  · have same : sealedAt [t.slot] n = id := funext fun z => if_neg (by simpa using here)
    rw [slotAt_putSlot_other here, same, Option.map_id, id]

theorem Expiring.tail (h : s.Expiring (t :: l)) : (s.expireTake begun t).Expiring l := by
  obtain ⟨y, there, _⟩ := h.head
  refine ⟨?_, (List.nodup_cons.mp h.nodup).2, fun u hu => (expireTake_transfers s begun t (h.apart hu)).mpr (h.flies u (List.mem_cons_of_mem t hu))⟩
  rw [expireTake_of_slot begun there, testBacklog_eq]
  refine ⟨risingSlots_putSlot _ _ h.table.1, fun e he => ?_⟩
  rcases fst_mem_putSlot he with rfl | mem
  · exact h.table.2 (t.slot, y) ((slotAt_eq_some_iff h.table.1).mp there)
  · exact h.table.2 e mem

theorem Expiring.backlogCount (h : s.Expiring (t :: l)) {y : Slot} (there : slotAt t.slot s.store.slots = some y) :
    (s.returned begun t y).store.backlogCount = s.store.backlogCount + 1 := by
  obtain ⟨z, same, flies⟩ := h.head
  obtain rfl := Option.some.inj (there.symm.trans same)
  refine sealed_putSlot h.table.1 there ?_ (Slot.isSealed_iff _ |>.mpr rfl)
  rw [Slot.isSealed, flies]
  rfl

/-! ### The takes of an edge, one after the other -/

theorem Expiring.fold_tail {l₁ l₂ : List Take} (h : s.Expiring (l₁ ++ l₂)) : (l₁.foldl (fun (u : State) t => u.expireTake begun t) s).Expiring l₂ := by
  induction l₁ generalizing s with
  | nil => exact h
  | cons t l₁ ih => exact ih h.tail

/-- What the takes that expire leave of the archive queue, the slots, and the rest. -/
theorem Expiring.foldl_archive (h : s.Expiring l) :
    (l.foldl (fun (u : State) t => u.expireTake begun t) s).archive =
      { s.archive with takes := s.archive.takes.filter fun q => decide (q.slot ∉ l.map (·.slot)) } := by
  induction l generalizing s with
  | nil =>
    simp
  | cons t l ih =>
    obtain ⟨y, there, _⟩ := h.head
    have step : (s.expireTake begun t).archive =
        { s.archive with takes := s.archive.takes.filter fun q => decide (q.slot ≠ t.slot) } := by
      rw [expireTake_of_slot begun there, testBacklog_eq]
      rfl
    rw [List.foldl_cons, ih h.tail, step]
    simp only [List.filter_filter, List.map_cons, List.mem_cons, not_or, Bool.decide_and, Bool.and_comm]

theorem Expiring.slotAt_foldl (h : s.Expiring l) (n : Nat) :
    slotAt n (l.foldl (fun (u : State) t => u.expireTake begun t) s).store.slots = (slotAt n s.store.slots).map (sealedAt (l.map (·.slot)) n) := by
  induction l generalizing s with
  | nil =>
    have same : sealedAt [] n = id := funext fun z => if_neg List.not_mem_nil
    show slotAt n s.store.slots = (slotAt n s.store.slots).map (sealedAt [] n)
    rw [same, Option.map_id, id]
  | cons t l ih =>
    obtain ⟨y, there, _⟩ := h.head
    rw [List.foldl_cons, ih h.tail, slotAt_expireTake there, Option.map_map]
    refine congrArg (fun f => (slotAt n s.store.slots).map f) (funext fun z => ?_)
    simp only [Function.comp, sealedAt, List.map_cons, List.mem_cons]
    by_cases first : n = t.slot <;> by_cases later : n ∈ l.map (·.slot) <;> simp [first, later]

theorem foldl_expireTake_frame (s : State) (l : List Take) :
    l.foldl (fun (u : State) t => u.expireTake begun t) s =
      { s with
        archive := (l.foldl (fun (u : State) t => u.expireTake begun t) s).archive
        store := (l.foldl (fun (u : State) t => u.expireTake begun t) s).store
        inFlight := (l.foldl (fun (u : State) t => u.expireTake begun t) s).inFlight } := by
  induction l generalizing s with
  | nil => rfl
  | cons t l ih =>
    have step : s.expireTake begun t = { s with
        archive := (s.expireTake begun t).archive, store := (s.expireTake begun t).store
        inFlight := (s.expireTake begun t).inFlight } := by
      unfold expireTake
      split
      · rfl
      · rw [testBacklog_eq]
        rfl
    rw [List.foldl_cons, ih]
    exact congrArg (fun u : State => { u with
      archive := (l.foldl (fun (u : State) t => u.expireTake begun t) (s.expireTake begun t)).archive
      store := (l.foldl (fun (u : State) t => u.expireTake begun t) (s.expireTake begun t)).store
      inFlight := (l.foldl (fun (u : State) t => u.expireTake begun t) (s.expireTake begun t)).inFlight }) step

/-- R136: the backlog state stays as it is while `k` more slots are SEALED. -/
def BacklogStays (s : State) (k : Nat) : Prop :=
  s.store.backlog = .normal ∧ s.store.backlogCount + k < s.store.threshold ∨
    s.store.backlog = .high ∧ s.store.threshold - 256 < s.store.backlogCount

/-- R164: takes that expire with no change of the backlog state send their own messages, in their order. -/
structure Expired (begun : Option Mi) (s : State) (l : List Take) (v : State) : Prop where
  sent : v.inFlight = s.inFlight ++ l.flatMap fun t => timeout begun t (slotAt t.slot s.store.slots)
  backlog : v.store.backlog = s.store.backlog
  count : v.store.backlogCount = s.store.backlogCount + l.length
  threshold : v.store.threshold = s.store.threshold
  station : v.station = s.station

theorem Expiring.expired {l₁ l₂ : List Take} (h : s.Expiring (l₁ ++ l₂)) (stays : s.BacklogStays l₁.length) :
    Expired begun s l₁ (l₁.foldl (fun (u : State) t => u.expireTake begun t) s) := by
  induction l₁ generalizing s with
  | nil => exact ⟨(List.append_nil _).symm, rfl, rfl, rfl, rfl⟩
  | cons t l₁ ih =>
    obtain ⟨y, there, flies⟩ := h.head
    have count := h.backlogCount (begun := begun) there
    have backlog : (s.returned begun t y).store.backlog = s.store.backlog := rfl
    have threshold : (s.returned begun t y).store.threshold = s.store.threshold := rfl
    have first : s.expireTake begun t = s.returned begun t y := by
      rw [expireTake_of_slot begun there]
      refine testBacklog_stays ?_
      rw [backlog, threshold, count]
      refine stays.imp (And.imp_right fun low => ?_) (And.imp_right fun high => ?_)
      · rw [List.length_cons] at low
        omega
      · omega
    have next : (s.returned begun t y).BacklogStays l₁.length := by
      rw [BacklogStays, backlog, threshold, count]
      refine stays.imp (And.imp_right fun low => ?_) (And.imp_right fun high => ?_)
      · rw [List.length_cons] at low
        omega
      · omega
    have rest := ih (first ▸ h.tail) next
    rw [List.foldl_cons, first]
    refine ⟨?_, rest.backlog, ?_, rest.threshold, rest.station⟩
    · have others : (l₁.flatMap fun u => timeout begun u (slotAt u.slot (s.returned begun t y).store.slots)) =
          l₁.flatMap fun u => timeout begun u (slotAt u.slot s.store.slots) :=
        List.flatMap_congr fun u hu => congrArg (timeout begun u)
          (slotAt_putSlot_other (h.apart (List.mem_append_left _ hu)) _ _)
      rw [rest.sent, others, List.flatMap_cons, there, ← List.append_assoc]
      rfl
    · rw [rest.count, count, List.length_cons, Nat.add_assoc, Nat.add_comm 1]

/-- R164, R136: the take whose slot brings a NORMAL backlog to the threshold. -/
theorem Expiring.rises (h : s.Expiring (t :: l)) (normal : s.store.backlog = .normal)
    (full : s.store.backlogCount + 1 = s.store.threshold) :
    let v := s.expireTake begun t
    v.inFlight = s.inFlight ++ timeout begun t (slotAt t.slot s.store.slots)
        ++ [notice .backlogHigh none s.station.time (.backlog s.store.threshold s.store.threshold)] ∧
      v.BacklogStays l.length ∧
      ∀ u ∈ l, slotAt u.slot v.store.slots = slotAt u.slot s.store.slots := by
  intro v
  obtain ⟨y, there, _⟩ := h.head
  have count := h.backlogCount (begun := begun) there
  have up : v = { s.returned begun t y with store := { (s.returned begun t y).store with backlog := .high } }.send
      [notice .backlogHigh none s.station.time (.backlog s.store.threshold s.store.threshold)] := by
    have test := testBacklog_rises (s := s.returned begun t y) normal (by
      rw [count]
      exact Nat.le_of_eq full.symm)
    rw [count, full] at test
    exact (expireTake_of_slot begun there).trans test
  refine ⟨?_, .inr ⟨by rw [up]; rfl, ?_⟩, fun u hu => ?_⟩
  · rw [up, there]
    rfl
  · have high : v.store.backlogCount = s.store.threshold := by
      rw [up]
      exact count.trans full
    have same : v.store.threshold = s.store.threshold := by
      rw [up]
      rfl
    rw [high, same]
    omega
  · rw [up]
    exact slotAt_putSlot_other (h.apart hu) _ _

end

/-- The slots of the takes that have not expired yet are as they were. -/
theorem Expiring.slotAt_later {s : State} {begun : Option Mi} {l₁ l₂ : List Take} (h : s.Expiring (l₁ ++ l₂)) {t : Take} (ht : t ∈ l₂) :
    slotAt t.slot (l₁.foldl (fun (u : State) t => u.expireTake begun t) s).store.slots = slotAt t.slot s.store.slots := by
  have slots := h.nodup
  rw [List.map_append, List.nodup_append'] at slots
  obtain ⟨first, _, apart⟩ := slots
  have alone : s.Expiring l₁ := ⟨h.table, first, fun u hu => h.flies u (List.mem_append_left _ hu)⟩
  have same : sealedAt (l₁.map (·.slot)) t.slot = id := funext fun z =>
    if_neg fun mem => apart mem (List.mem_map.mpr ⟨t, ht, rfl⟩)
  rw [alone.slotAt_foldl, same, Option.map_id, id]

/-- R136, R164: the takes of an edge, of which one brings a NORMAL backlog to the threshold. -/
theorem Expiring.crosses {s : State} {begun : Option Mi} {l₁ l₂ : List Take} {t : Take} (h : s.Expiring (l₁ ++ t :: l₂))
    (normal : s.store.backlog = .normal) (full : s.store.backlogCount + (l₁.length + 1) = s.store.threshold) :
    ((l₁ ++ t :: l₂).foldl (fun (u : State) t => u.expireTake begun t) s).inFlight =
      s.inFlight ++ ((l₁ ++ [t]).flatMap fun t => timeout begun t (slotAt t.slot s.store.slots))
        ++ [notice .backlogHigh none s.station.time (.backlog s.store.threshold s.store.threshold)]
        ++ l₂.flatMap fun t => timeout begun t (slotAt t.slot s.store.slots) := by
  have before := h.expired (begun := begun) (.inl ⟨normal, by omega⟩)
  have turn := h.fold_tail (begun := begun)
  obtain ⟨sent, stays, slots⟩ := turn.rises (begun := begun) (before.backlog.trans normal) (by
    rw [before.count, before.threshold, Nat.add_assoc, full])
  have alone := (turn.tail (begun := begun))
  rw [← List.append_nil l₂] at alone
  have after := alone.expired (begun := begun) stays
  have later : (l₂.flatMap fun u => timeout begun u
      (slotAt u.slot ((l₁.foldl (fun (u : State) t => u.expireTake begun t) s).expireTake begun t).store.slots)) =
      l₂.flatMap fun u => timeout begun u (slotAt u.slot s.store.slots) :=
    List.flatMap_congr fun u hu => congrArg (timeout begun u)
      ((slots u hu).trans (h.slotAt_later (List.mem_cons_of_mem t hu)))
  rw [List.foldl_append, List.foldl_cons, after.sent, later, sent, before.sent, before.threshold, before.station,
    h.slotAt_later List.mem_cons_self]
  simp only [List.flatMap_append, List.flatMap_singleton, List.append_assoc]

/-- A list cut behind its `k`-th member. -/
theorem exists_cut {l : List Take} {k : Nat} (pos : 1 ≤ k) (within : k ≤ l.length) :
    ∃ l₁ t l₂, l = l₁ ++ t :: l₂ ∧ l₁.length + 1 = k ∧ l.take k = l₁ ++ [t] ∧ l.drop k = l₂ := by
  obtain ⟨j, rfl⟩ : ∃ j, k = j + 1 := ⟨k - 1, by omega⟩
  refine ⟨l.take j, l[j], l.drop (j + 1), ?_, ?_, ?_, rfl⟩
  · rw [← List.drop_eq_getElem_cons, List.take_append_drop]
  · rw [List.length_take, Nat.min_eq_left (Nat.le_of_succ_le within)]
  · exact List.take_succ_eq_append_getElem _

/-! ### The edge (R164) -/

/-- R164: the takes with every timer counted down. -/
def counted (s : State) : List Take := s.archive.takes.map fun t : Take => { t with remaining := t.remaining - 1 }

/-- R164: the takes whose timer reaches 0 at an edge. -/
def expired (s : State) : List Take := s.counted.filter fun t => decide (t.remaining = 0)

/-- R164: the part at a period edge, every timer counted down. -/
def atEdge (s : State) (begun : Option Mi) : State :=
  { s.arrive (.archivePeriodEdge begun) with archive := { s.archive with takes := s.counted } }

theorem exec_archivePeriodEdge (s : State) (begun : Option Mi) :
    exec (.archivePeriodEdge begun) s = .next (s.expired.foldl (fun (u : State) t => u.expireTake begun t) (s.atEdge begun)) := by
  have test : (fun t : Take => t.remaining == 0) = fun t => decide (t.remaining = 0) := funext fun t => beq_eq_decide ..
  show Host.Outcome.next ((s.counted.filter fun t => t.remaining == 0).foldl (fun (u : State) t => u.expireTake begun t) (s.atEdge begun)) = _
  rw [test]
  rfl

theorem counted_slots (s : State) : s.counted.map (·.slot) = s.archive.takes.map (·.slot) := by
  rw [counted, List.map_map]
  rfl

theorem expiring_atEdge {s : State} (table : s.store.GoodTable) (takes : s.GoodTakes) (begun : Option Mi) :
    (s.atEdge begun).Expiring s.expired := by
  obtain ⟨_, nodup, flies, _⟩ := s.goodTakes_iff.mp takes
  refine ⟨table, ?_, fun t ht => ?_⟩
  · exact (s.counted_slots ▸ nodup).sublist (List.filter_sublist.map _)
  · obtain ⟨q, mem, rfl⟩ := List.mem_map.mp (List.mem_filter.mp ht).1
    exact flies q mem

theorem mem_expired_slots (s : State) (n : Nat) :
    n ∈ s.expired.map (·.slot) ↔ ∃ t ∈ s.archive.takes, t.slot = n ∧ t.remaining ≤ 1 := by
  simp only [expired, counted, List.mem_map, List.mem_filter, decide_eq_true_eq]
  constructor
  · rintro ⟨_, ⟨⟨t, mem, rfl⟩, zero⟩, rfl⟩
    exact ⟨t, mem, rfl, Nat.sub_eq_zero_iff_le.mp zero⟩
  · rintro ⟨t, mem, rfl, last⟩
    exact ⟨_, ⟨⟨t, mem, rfl⟩, Nat.sub_eq_zero_of_le last⟩, rfl⟩

/-- R164: the takes that stay are those whose timer has not reached 0. -/
theorem filter_not_expired {s : State} (takes : s.GoodTakes) :
    (s.counted.filter fun q => decide (q.slot ∉ s.expired.map (·.slot))) = s.counted.filter fun q => decide (q.remaining ≠ 0) := by
  obtain ⟨_, nodup, _⟩ := takes
  have unique : ∀ t ∈ s.counted, ∀ q ∈ s.counted, t.slot = q.slot → t = q :=
    fun t ht q hq => List.inj_on_of_nodup_map (s.counted_slots ▸ nodup) ht hq
  refine List.filter_congr fun q hq => decide_eq_decide.mpr (not_congr ⟨fun gone => ?_, fun zero => ?_⟩)
  · obtain ⟨t, ht, same⟩ := List.mem_map.mp gone
    obtain ⟨mem, zero⟩ := List.mem_filter.mp ht
    rw [← unique t mem q hq same]
    exact of_decide_eq_true zero
  · exact List.mem_map.mpr ⟨q, List.mem_filter.mpr ⟨hq, decide_eq_true zero⟩, rfl⟩

/-- R164: nothing expires in a slot whose timer does not stand at 0. -/
theorem exec_takeTimerExpiry_of_none {s : State} {n : Nat} (h : ∀ t ∈ s.archive.takes, t.slot = n → t.remaining ≠ 0) :
    exec (.takeTimerExpiry n) s = .next s := by
  refine congrArg Host.Outcome.next ?_
  split
  · rfl
  · next t take => exact if_neg (h t (List.mem_of_find?_eq_some take) (beq_iff_eq.mp (List.find?_some take :)))

theorem exec_takeTimerExpiry_of_zero {s : State} {t : Take} (take : s.archive.takeOf t.slot = some t) (zero : t.remaining = 0) :
    exec (.takeTimerExpiry t.slot) s = .next (s.expireTake s.now t) := by
  show Host.Outcome.next (match s.archive.takeOf t.slot with
    | none => s
    | some t => if t.remaining = 0 then s.expireTake s.now t else s) = _
  rw [take]
  exact congrArg Host.Outcome.next (if_pos zero)

end State

/-- Settles O48: the takes that expire, one after the other, each sealing its slot and testing the backlog. -/
theorem takeTimersCountPeriodEdges : Obligations.TakeTimersCountPeriodEdges := by
  intro s table takes messages expire
  have expires : expire = fun begun (u : State) t => u.expireTake begun t := by
    funext begun u t
    show (match slotAt t.slot u.store.slots with
      | none => u
      | some y => (u.returned begun t y).testBacklog) = u.expireTake begun t
    cases there : slotAt t.slot u.store.slots with
    | none => simp only [State.expireTake, there]
    | some y => exact (State.expireTake_of_slot begun there).symm
  refine ⟨fun begun => ?_, fun n => ⟨State.exec_takeTimerExpiry_of_none, ?_⟩⟩
  · intro c counted expired each backlog threshold
    have good := State.expiring_atEdge table takes begun
    have alone : (s.atEdge begun).Expiring (s.expired ++ []) := by rwa [List.append_nil]
    have sends : each = fun t => State.timeout begun t (slotAt t.slot (s.atEdge begun).store.slots) := by
      funext t
      show (match slotAt t.slot s.store.slots with
        | none => []
        | some y => messages begun t y) = State.timeout begun t (slotAt t.slot s.store.slots)
      cases slotAt t.slot s.store.slots <;> rfl
    have count : s.store.backlogCount = backlog := s.store.backlogCount_eq
    have counts : (s.atEdge begun).store.backlogCount = backlog := count
    refine ⟨_, s.exec_archivePeriodEdge begun, ?_, ?_, ?_, fun n y there => ?_, fun n empty => ?_, fun stays => ?_,
      fun k normal full pos within => ?_, State.foldl_expireTake_frame (s.atEdge begun) s.expired⟩
    · rw [expires]
      rfl
    · rw [good.foldl_archive]
      rfl
    · rw [good.foldl_archive]
      exact State.filter_not_expired takes
    · rw [good.slotAt_foldl, show slotAt n (s.atEdge begun).store.slots = some y from there, Option.map_some]
      exact congrArg some (if_congr (s.mem_expired_slots n) rfl rfl)
    · rw [good.slotAt_foldl, show slotAt n (s.atEdge begun).store.slots = none from empty, Option.map_none]
    · have quiet : (s.atEdge begun).BacklogStays s.expired.length := by
        rw [State.BacklogStays, counts]
        exact stays
      rw [(alone.expired (begun := begun) quiet).sent, sends]
      rfl
    · obtain ⟨l₁, t, l₂, cut, length, front, back⟩ := State.exists_cut pos within
      have same : s.expired = l₁ ++ t :: l₂ := cut
      have crossing := State.Expiring.crosses (s := s.atEdge begun) (begun := begun) (same ▸ good) normal (by
        rw [counts, length]
        exact full)
      rw [same, front, back, sends, crossing]
      rfl
  · rintro t y mem rfl zero there
    have take : s.archive.takeOf t.slot = some t := by
      have found : (s.archive.takeOf t.slot).isSome := List.find?_isSome.mpr ⟨t, mem, beq_self_eq_true _⟩
      obtain ⟨q, take⟩ := Option.isSome_iff_exists.mp found
      have slot : q.slot = t.slot := beq_iff_eq.mp (List.find?_some take :)
      rw [take, List.inj_on_of_nodup_map takes.2.1 (List.mem_of_find?_eq_some take) mem slot]
    rw [State.exec_takeTimerExpiry_of_zero take zero, State.expireTake_of_slot _ there]
    rfl

end Sys2Proof.Machine
end

section
/-!
Bytes (10.8.1), request frames (R171, R172), and the catalogue of requests (10.5).
-/

namespace Sys2Proof.Machine

/-! ### Numbers in bytes -/

@[simp] theorem be_length (k n : Nat) : (be k n).length = k := by
  induction k with
  | zero => rfl
  | succ k ih => rw [be, List.length_cons, ih]

theorem be_two (n : Nat) : be 2 n = [BitVec.ofNat 8 (n / 256), BitVec.ofNat 8 n] := by
  simp only [be, Nat.pow_one, Nat.pow_zero, Nat.div_one]

theorem ofBe_append (l m : List Byte) : ofBe (l ++ m) = ofBe l * 256 ^ m.length + ofBe m := by
  have grows (a : Nat) : m.foldl (fun n b => 256 * n + b.toNat) a = a * 256 ^ m.length + ofBe m := by
    induction m generalizing a with
    | nil => rw [List.length_nil, Nat.pow_zero, Nat.mul_one]; rfl
    | cons b m ih =>
      have head : ofBe (b :: m) = (256 * 0 + b.toNat) * 256 ^ m.length + ofBe m := ih (256 * 0 + b.toNat)
      rw [List.foldl_cons, ih, head, List.length_cons, Nat.pow_succ]
      ring
  rw [ofBe, List.foldl_append]
  exact grows _

theorem ofBe_cons (b : Byte) (l : List Byte) : ofBe (b :: l) = b.toNat * 256 ^ l.length + ofBe l := by
  have := ofBe_append [b] l
  rwa [show ofBe [b] = b.toNat by simp [ofBe]] at this

theorem ofBe_lt (l : List Byte) : ofBe l < 256 ^ l.length := by
  induction l with
  | nil => exact Nat.one_pos
  | cons b l ih =>
    have byte : b.toNat ≤ 255 := Nat.le_of_lt_succ b.isLt
    have := Nat.mul_le_mul_right (256 ^ l.length) byte
    rw [ofBe_cons, List.length_cons, Nat.pow_succ]
    omega

theorem ofBe_be (k n : Nat) : ofBe (be k n) = n % 256 ^ k := by
  induction k with
  | zero => rw [Nat.pow_zero, Nat.mod_one]; rfl
  | succ k ih =>
    rw [be, ofBe_cons, ih, be_length, Nat.pow_succ, Nat.mod_mul, BitVec.toNat_ofNat, Nat.mul_comm (256 ^ k), Nat.add_comm]

/-- Only the low bytes count. -/
theorem be_add_mul (k a n : Nat) : be k (a * 256 ^ k + n) = be k n := by
  induction k generalizing a with
  | zero => rfl
  | succ k ih =>
    have more : a * 256 ^ (k + 1) + n = 256 * a * 256 ^ k + n := by ring
    have high : (256 * a * 256 ^ k + n) / 256 ^ k = 256 * a + n / 256 ^ k := by
      rw [Nat.add_comm, Nat.add_mul_div_right _ _ (Nat.pow_pos (by decide)), Nat.add_comm]
    have byte : BitVec.ofNat 8 (256 * a + n / 256 ^ k) = BitVec.ofNat 8 (n / 256 ^ k) := by
      apply BitVec.eq_of_toNat_eq
      rw [BitVec.toNat_ofNat, BitVec.toNat_ofNat]
      exact Nat.mul_add_mod ..
    rw [more, be, be, ih, high, byte]

theorem be_ofBe (l : List Byte) : be l.length (ofBe l) = l := by
  induction l with
  | nil => rfl
  | cons b l ih =>
    have high : (b.toNat * 256 ^ l.length + ofBe l) / 256 ^ l.length = b.toNat := by
      rw [Nat.add_comm, Nat.add_mul_div_right _ _ (Nat.pow_pos (by decide)), Nat.div_eq_of_lt (ofBe_lt l), Nat.zero_add]
    rw [ofBe_cons, List.length_cons, be, high, be_add_mul, ih, BitVec.ofNat_toNat, BitVec.setWidth_eq]

/-! ### Request frames (R171, R172) -/

theorem withCrc_length (l : List Byte) : (withCrc l).length = l.length + 2 := by
  rw [withCrc, List.length_append, be_length]

theorem parseFrame_short {l : List Byte} (h : l.length < 6) : parseFrame l = none := if_pos h

/-- R171: a frame in parts: tag, code, length, and the rest, whose last two bytes are the CRC. -/
theorem parseFrame_eq_some_iff (a b c d : Byte) (r : List Byte) (q : Request) :
    parseFrame (a :: b :: c :: d :: r) = some q ↔
      ofBe [c, d] ≤ 4096 ∧ r.length = ofBe [c, d] + 2 ∧ be 2 (crcOf ([a, b, c, d] ++ r.take (ofBe [c, d]))).toNat = r.drop (ofBe [c, d]) ∧
        q = ⟨a, b, r.take (ofBe [c, d])⟩ := by
  have front : (a :: b :: c :: d :: r).take (4 + ofBe [c, d]) = [a, b, c, d] ++ r.take (ofBe [c, d]) := by
    rw [show 4 + ofBe [c, d] = ofBe [c, d] + 1 + 1 + 1 + 1 by omega]
    rfl
  have back : (a :: b :: c :: d :: r).drop (4 + ofBe [c, d]) = r.drop (ofBe [c, d]) := by
    rw [show 4 + ofBe [c, d] = ofBe [c, d] + 1 + 1 + 1 + 1 by omega]
    rfl
  show (if (a :: b :: c :: d :: r).length < 6 then none
    else if 4096 < ofBe [c, d] then none
    else if (a :: b :: c :: d :: r).length ≠ 6 + ofBe [c, d] then none
    else if be 2 (crcOf ((a :: b :: c :: d :: r).take (4 + ofBe [c, d]))).toNat ≠ (a :: b :: c :: d :: r).drop (4 + ofBe [c, d]) then none
    else some ⟨a, b, r.take (ofBe [c, d])⟩) = some q ↔ _
  rw [front, back]
  simp only [List.length_cons]
  constructor
  · intro h
    split_ifs at h with short long other crc
    rw [not_not] at crc
    exact ⟨by omega, by omega, crc, (Option.some.inj h).symm⟩
  · rintro ⟨fits, length, crc, rfl⟩
    rw [if_neg (by omega), if_neg (by omega), if_neg (by omega), if_neg (not_not_intro crc)]

/-- Settles O52: the frame taken apart, and the frame of a request put together. -/
theorem framesAndRequestsAgree : Obligations.FramesAndRequestsAgree := by
  intro l q
  rw [← be_two]
  by_cases short : l.length < 6
  · rw [parseFrame_short short]
    refine iff_of_false nofun fun ⟨_, eq⟩ => ?_
    rw [eq, withCrc_length] at short
    simp only [List.length_append, be_length, List.length_cons] at short
    omega
  · rcases l with - | ⟨a, - | ⟨b, - | ⟨c, - | ⟨d, r⟩⟩⟩⟩
    iterate 4 · exact absurd (by simp) short
    rw [parseFrame_eq_some_iff]
    have two : be 2 (ofBe [c, d]) = [c, d] := be_ofBe [c, d]
    constructor
    · rintro ⟨fits, length, crc, rfl⟩
      have taken : (r.take (ofBe [c, d])).length = ofBe [c, d] := by
        rw [List.length_take, length]
        omega
      refine ⟨(Nat.le_of_eq taken).trans fits, ?_⟩
      rw [taken, two, withCrc]
      show _ = [a, b, c, d] ++ r.take (ofBe [c, d]) ++ be 2 (crcOf ([a, b, c, d] ++ r.take (ofBe [c, d]))).toNat
      rw [crc, List.append_assoc, List.take_append_drop]
      rfl
    · obtain ⟨tag, code, payload⟩ := q
      rintro ⟨fits, eq⟩
      rw [be_two] at eq
      simp only [withCrc, List.cons_append, List.nil_append, List.cons.injEq] at eq
      obtain ⟨rfl, rfl, rfl, rfl, rfl⟩ := eq
      have len : ofBe [BitVec.ofNat 8 (payload.length / 256), BitVec.ofNat 8 payload.length] = payload.length := by
        rw [← be_two, ofBe_be]
        exact Nat.mod_eq_of_lt (Nat.lt_of_le_of_lt fits (by decide))
      rw [len]
      refine ⟨fits, ?_, ?_, ?_⟩
      · rw [List.length_append, be_length]
      · rw [List.take_left, List.drop_left]
        rfl
      · rw [List.take_left]

end Sys2Proof.Machine
end

section
/-!
Requests entering service (R174, R176): the catalogue, the checks, and the command of each code.
-/

namespace Sys2Proof.Machine

/-! ### The catalogue (10.5) -/

theorem mem_of_catalogueRow {code : Nat} {row : CatalogueRow} (h : catalogueRow code = some row) :
    row ∈ catalogue ∧ row.code = code :=
  ⟨List.mem_of_find?_eq_some h, beq_iff_eq.mp (List.find?_some h :)⟩

/-- 10.5: every code of the catalogue has its command. -/
theorem commandOf_isSome {code : Nat} {row : CatalogueRow} (h : catalogueRow code = some row) (rq : Req) (straps : Straps)
    (l : List Byte) : ∃ d, commandOf rq straps code l = some d := by
  obtain ⟨mem, rfl⟩ := mem_of_catalogueRow h
  have all : ∀ row ∈ catalogue, (commandOf rq straps row.code l).isSome = true := by
    simp only [catalogue, List.cons_append, List.nil_append, List.forall_mem_cons]
    and_intros
    iterate 38 · rfl
    exact fun _ h => nomatch h
  exact Option.isSome_iff_exists.mp (all row mem)

/-- R176: the rows that OBSERVER is permitted. -/
theorem catalogue_observer :
    (catalogue.filter fun row => row.permits .observer) =
      [⟨0x05, true, true, false, true⟩, ⟨0x40, true, true, true, true⟩, ⟨0x41, true, true, true, true⟩,
        ⟨0x42, true, true, true, true⟩, ⟨0x43, true, true, true, true⟩, ⟨0x44, true, true, false, true⟩,
        ⟨0x46, true, true, true, true⟩, ⟨0x47, true, true, true, true⟩] := by
  decide

/-! ### The checks of a request (R174) -/

section
variable {role : Role} {q : Request} (rq : Req) (straps : Straps)

theorem checkRequest_of_unknown (h : catalogueRow q.code.toNat = none) : checkRequest role rq straps q = .error .badArgument := by
  rw [checkRequest, h]

variable {row : CatalogueRow} (known : catalogueRow q.code.toNat = some row)
include known

theorem checkRequest_of_role (h : row.permits role = false) : checkRequest role rq straps q = .error .notPermitted := by
  rw [checkRequest, known]
  exact if_neg (by rw [h]; exact Bool.false_ne_true)

theorem checkRequest_of_length (permits : row.permits role = true) (h : q.payload.length ≠ payloadBytes q.code.toNat q.payload) :
    checkRequest role rq straps q = .error .badArgument := by
  rw [checkRequest, known]
  dsimp only
  rw [if_pos permits, if_neg h]

theorem checkRequest_of_good (permits : row.permits role = true) (h : q.payload.length = payloadBytes q.code.toNat q.payload) :
    ∃ d, commandOf rq straps q.code.toNat q.payload = some d ∧ checkRequest role rq straps q = .ok d := by
  obtain ⟨d, command⟩ := commandOf_isSome known rq straps q.payload
  refine ⟨d, command, ?_⟩
  rw [checkRequest, known]
  dsimp only
  rw [if_pos permits, if_pos h, command]

end

/-! ### The request at the head of a queue (R173, R174) -/

namespace State

variable {s : State} {p : PortNo}

theorem serve_of_none (h : s.ports[p].unserved = none) : s.serve p = s := by
  unfold serve
  dsimp only
  rw [h]

theorem unserved_eq_none (h : s.ports[p].serving.isSome ∨ s.ports[p].queue = []) : s.ports[p].unserved = none := by
  unfold Port.unserved
  rcases h with serving | empty
  · exact if_pos serving
  · rw [empty]
    exact ite_self _

theorem unserved_eq_some {q : Request} {qs : List Request} (idle : s.ports[p].serving = none) (queue : s.ports[p].queue = q :: qs) :
    s.ports[p].unserved = some q := by
  rw [Port.unserved, idle, queue]
  rfl

section
variable {q : Request} {qs : List Request} (idle : s.ports[p].serving = none) (queue : s.ports[p].queue = q :: qs)
include idle queue

theorem serve_of_ok {d : Instr}
    (h : checkRequest s.ports[p].role ⟨p, q.tag, some (s.ports[p].passes + 1)⟩ (reading p (s.ports[p].passes + 1)) q = .ok d) :
    s.serve p =
      (s.setPort p { s.ports[p] with serving := some (s.ports[p].passes + 1), passes := s.ports[p].passes + 1 }).send [d] := by
  unfold serve
  dsimp only
  rw [unserved_eq_some idle queue]
  dsimp only
  rw [show s.checked p (s.ports[p].passes + 1) q = .ok d from h]

theorem serve_of_error {st : Status}
    (h : checkRequest s.ports[p].role ⟨p, q.tag, some (s.ports[p].passes + 1)⟩ (reading p (s.ports[p].passes + 1)) q = .error st) :
    s.serve p =
      (s.setPort p { s.ports[p] with
        queue := qs
        out := match s.ports[p].link with
          | .up => s.ports[p].out ++ [Response.mk q.tag st .nothing]
          | .down => s.ports[p].out }).send (if qs = [] then [] else [.requestService p]) := by
  unfold serve
  dsimp only
  rw [unserved_eq_some idle queue]
  dsimp only
  rw [show s.checked p (s.ports[p].passes + 1) q = .error st from h, queue]
  cases qs with
  | nil => exact (State.send_nil _).symm
  | cons q' qs => rfl

end

end State

/-! ### The arguments of a request (10.8.1) -/

/-- A number in the terms of the statements: the bytes spelled from the front. -/
theorem field_eq (l : List Byte) (off size : Nat) :
    field l off size = ((l.drop off).take size).foldl (fun n b => 256 * n + b.toNat) 0 := rfl

theorem codeField_eq (l : List Byte) (off : Nat) :
    codeField l off = if field l off 2 < 2 ^ 15 then (field l off 2 : Int) else field l off 2 - 2 ^ 16 := by
  have bound : field l off 2 < 2 ^ 16 := by
    have short : ((l.drop off).take 2).length ≤ 2 := List.length_take_le ..
    exact Nat.lt_of_lt_of_le (ofBe_lt _) (Nat.pow_le_pow_right (by decide) short)
  show (BitVec.ofNat 16 (field l off 2)).toInt = _
  rw [BitVec.toInt_eq_toNat_cond, BitVec.toNat_ofNat, Nat.mod_eq_of_lt bound]
  split <;> split <;> omega

theorem marked_eq {α : Type} (l : List Byte) (off : Nat) (v : α) :
    marked l off v =
      if field l off 1 = 0 then .value v else if field l off 1 = 1 then .dflt else if field l off 1 = 2 then .absent else .badMarker := by
  unfold marked
  split <;> simp_all

theorem markedNat_eq (l : List Byte) (off size : Nat) : markedNat l off size = marked l off (field l (off + 1) size) := rfl

theorem markedCode_eq (l : List Byte) (off : Nat) : markedCode l off = marked l off (codeField l (off + 1)) := rfl

theorem channelCount_eq (l : List Byte) : channelCount l = (l.getD 4 0).toNat := by
  show ofBe ((l.drop 4).take 1) = _
  rw [List.getD_eq_getElem?_getD]
  rcases h : l.drop 4 with - | ⟨b, r⟩
  · have short : l.length ≤ 4 := List.drop_eq_nil_iff.mp h
    rw [List.getElem?_eq_none short]
    rfl
  · have there : l[4]? = some b := by
      rw [← Nat.add_zero 4, ← List.getElem?_drop, h]
      rfl
    rw [there]
    simp [ofBe]

/-- Settles O50: the checks in their order, the catalogue row by row, and the command of each code. -/
theorem requestsEnterServiceAfterChecks : Obligations.RequestsEnterServiceAfterChecks := by
  refine ⟨fun s p => ?_, ?_, fun role rq straps q => ?_, fun rq straps l => ?_, fun code row known permits rq straps l d command => ?_⟩
  · intro c u x
    have serves (t : State) (h : u.serve p = t) : exec c s = .next t := congrArg Host.Outcome.next h
    refine ⟨fun still => serves u (State.serve_of_none (State.unserved_eq_none still)), fun q qs idle queue => ?_⟩
    intro k rq code answered
    have fails (st : Status) (h : checkRequest x.role rq (reading p k) q = .error st) : exec c s = .next (answered st) :=
      serves _ (State.serve_of_error (s := u) idle queue h)
    refine ⟨fun unknown => fails _ (checkRequest_of_unknown _ _ unknown), fun row known =>
      ⟨fun role => fails _ (checkRequest_of_role _ _ known role), fun role length => fails _ (checkRequest_of_length _ _ known role length),
        fun role length => ?_⟩⟩
    obtain ⟨d, command, check⟩ := checkRequest_of_good rq (reading p k) known role length
    exact ⟨d, command, serves _ (State.serve_of_ok (s := u) idle queue check)⟩
  · intro all rows
    refine ⟨?_, ⟨_, rfl, fun r => by cases r <;> decide, fun l => congrArg (50 + 2 * ·) (channelCount_eq l)⟩, fun code other others => ?_⟩
    · simp only [rows, all, List.cons_append, List.nil_append, List.forall_mem_cons]
      and_intros
      iterate 37 · exact ⟨_, rfl, fun r => by cases r <;> decide, fun _ => rfl⟩
      exact fun _ h => nomatch h
    · have listed : ∀ row ∈ catalogue, row.code = 0x10 ∨ row.code ∈ rows.map (·.1) := by decide
      refine List.find?_eq_none.mpr fun row mem same => ?_
      obtain rfl := beq_iff_eq.mp same
      rcases listed row mem with ten | mapped
      · exact other ten
      · obtain ⟨e, he, eq⟩ := List.mem_map.mp mapped
        exact others e he eq
  · exact ⟨checkRequest_of_unknown rq straps, fun row known => ⟨checkRequest_of_role rq straps known,
      checkRequest_of_length rq straps known, checkRequest_of_good rq straps known⟩⟩
  · intro num level behind opt optLevel desc entries d service profile gives
    have level_eq (off : Nat) : codeField l off = level off := codeField_eq l off
    have opt_eq (off size : Nat) : markedNat l off size = opt off size := marked_eq l off _
    have optLevel_eq (off : Nat) : markedCode l off = optLevel off := by
      rw [markedCode_eq, level_eq]
      exact marked_eq l off _
    have channels_eq : channelArgs l 5 (channelCount l) =
        (List.range entries).map fun k => (num (5 + 2 * k) 1, num (6 + 2 * k) 1) :=
      List.map_congr_left fun k _ => by
        rw [show 5 + 2 * k + 1 = 6 + 2 * k by omega]
        rfl
    have service_eq : serviceArgs l = service := by
      simp only [serviceArgs, opt_eq, optLevel_eq, channels_eq, marked_eq]
      rfl
    have profile_eq : profileArgs l = profile := by
      simp only [profileArgs, opt_eq, optLevel_eq]
      rfl
    have reserves_eq : reserveArgs l = { reserve0 := opt 0 4, reserve1 := opt 5 4, reserve2 := opt 10 4, threshold := opt 15 4 } := by
      simp only [reserveArgs, opt_eq]
    exact ⟨rfl, rfl, rfl, rfl, rfl,
      congrArg (fun a => some (Instr.configureService rq (num 0 1) a)) service_eq, rfl, rfl,
      congrArg (fun a => some (Instr.setReserves rq a)) reserves_eq, congrArg (fun a => some (Instr.writeProfile rq (num 0 1) a)) profile_eq,
      rfl, rfl, rfl, rfl, rfl, rfl, rfl, rfl, rfl, rfl, rfl, rfl, rfl, rfl, rfl,
      congrArg (fun a => some (Instr.take rq a)) (opt_eq 0 4),
      rfl, rfl, rfl, rfl, rfl, rfl, rfl, rfl, rfl, rfl, rfl, rfl⟩
  · have row_mem : row ∈ catalogue.filter fun row => row.permits .observer :=
      List.mem_filter.mpr ⟨(mem_of_catalogueRow known).1, permits⟩
    obtain rfl := (mem_of_catalogueRow known).2
    rw [catalogue_observer] at row_mem
    simp only [List.mem_cons, List.not_mem_nil, or_false] at row_mem
    rcases row_mem with rfl | rfl | rfl | rfl | rfl | rfl | rfl | rfl
    all_goals
      obtain rfl := Option.some.inj command
      simp

end Sys2Proof.Machine
end

section
/-!
The link ports (R170, R171, R173, R178): alignment, symbols, frames, and the loss of a link.
-/

namespace Sys2Proof.Machine

namespace State

variable (s : State) (p : PortNo)

theorem setPort_self : s.setPort p s.ports[p] = s := by
  unfold setPort
  rw [Fin.getElem_fin, Vector.set_getElem_self]

theorem portFrame_self : s.portFrame p (s.ports[p], false) = s :=
  (State.send_nil _).trans (s.setPort_self p)

theorem portFrame_kept (y : Port) : s.portFrame p (y, false) = { s with ports := s.ports.set p y } := State.send_nil _

end State

namespace Port

variable {x : Port}

/-! ### Symbols (R171) -/

theorem startFrame_down (h : x.link = .down) : x.startFrame = (x, false) := by rw [startFrame, h]

theorem startFrame_up (h : x.link = .up) : x.startFrame = ({ x with rx := some [] }, x.rx.isSome) := by rw [startFrame, h]

theorem dataByte_none (h : x.link = .down ∨ x.rx = none) (b : Byte) : x.dataByte b = (x, false) := by
  unfold dataByte
  split
  · next up rx => exact absurd h (by rw [up, rx]; nofun)
  · rfl

theorem dataByte_some {l : List Byte} (up : x.link = .up) (rx : x.rx = some l) (b : Byte) :
    x.dataByte b = if 4102 ≤ l.length then ({ x with rx := none }, true) else ({ x with rx := some (l ++ [b]) }, false) := by
  rw [dataByte, up, rx]
  rfl

/-! ### The request of a good frame (R173) -/

theorem takeRequest_full (up : x.link = .up) (full : 4 ≤ x.queue.length) (q : Request) :
    x.takeRequest q = ({ x with out := x.out ++ [⟨q.tag, .busy, .nothing⟩] }, false) := by
  rw [← x.say_up _ up]
  exact if_pos full

theorem takeRequest_room (room : x.queue.length < 4) (q : Request) :
    x.takeRequest q = ({ x with queue := x.queue ++ [q] }, decide (x.queue = [])) := by
  have empty : x.queue.isEmpty = decide (x.queue = []) := by
    cases x.queue <;> rfl
  rw [← empty]
  exact if_neg (Nat.not_le.mpr room)

/-! ### The loss of a link (R178) -/

theorem linkLost_eq (x : Port) :
    x.linkLost = { x with link := .down, rx := none, queue := if x.serving.isSome then x.queue.take 1 else [] } := rfl

end Port

section
variable {s : State} {p : PortNo}

theorem exec_frameReceived_none (h : s.ports[p].link = .down ∨ s.ports[p].rx = none) : exec (.frameReceived p) s = .next s := by
  refine congrArg Host.Outcome.next ?_
  split
  · next up rx => exact absurd h (by rw [up, rx]; nofun)
  · rfl

theorem exec_frameReceived {l : List Byte} (up : s.ports[p].link = .up) (rx : s.ports[p].rx = some l) :
    exec (.frameReceived p) s =
      .next (match parseFrame l with
        | none => s.portFrame p ({ s.ports[p] with rx := none }, true)
        | some q =>
          (s.setPort p ({ s.ports[p] with rx := none }.takeRequest q).1).send
            (if ({ s.ports[p] with rx := none }.takeRequest q).2 then [.requestService p] else [])) := by
  refine congrArg Host.Outcome.next ?_
  split
  · next l' _ rx' =>
    obtain rfl := Option.some.inj (rx.symm.trans rx')
    rfl
  · next other => exact (other l up rx).elim

theorem State.linkLoss_down (h : s.ports[p].link = .down) : s.linkLoss p = s := by
  unfold State.linkLoss
  dsimp only
  rw [h]

theorem State.linkLoss_served (up : s.ports[p].link = .up) (h : s.ports[p].unserved = none) :
    s.linkLoss p = s.setPort p s.ports[p].linkLost := by
  unfold State.linkLoss
  dsimp only
  rw [up]
  dsimp only
  rw [h]

theorem State.linkLoss_of_ok (up : s.ports[p].link = .up) {q : Request} (h : s.ports[p].unserved = some q) {d : Instr}
    (check : s.checked p (s.ports[p].passes + 1) q = .ok d) :
    s.linkLoss p =
      (s.setPort p { s.ports[p] with serving := some (s.ports[p].passes + 1), passes := s.ports[p].passes + 1 }.linkLost).send [d] := by
  unfold State.linkLoss
  dsimp only
  rw [up]
  dsimp only
  rw [h]
  dsimp only
  rw [check]

theorem State.linkLoss_of_error (up : s.ports[p].link = .up) {q : Request} (h : s.ports[p].unserved = some q) {st : Status}
    (check : s.checked p (s.ports[p].passes + 1) q = .error st) : s.linkLoss p = s.setPort p s.ports[p].linkLost := by
  unfold State.linkLoss
  dsimp only
  rw [up]
  dsimp only
  rw [h]
  dsimp only
  rw [check]

end

/-- Settles O49: each event of a port by its link, the frame in reception, and the queue. -/
theorem portsReceiveFramesAndLoseLinks : Obligations.PortsReceiveFramesAndLoseLinks := by
  intro s p b x port discarded
  have aligned (y : Port) (h : x.linkAligned = y) : exec (.linkAlignment p) s = .next (port y) :=
    congrArg (fun y => Host.Outcome.next (port y)) h
  have started (r : Port × Bool) (h : x.startFrame = r) : exec (.startSymbol p) s = .next (s.portFrame p r) :=
    congrArg (fun r => Host.Outcome.next (s.portFrame p r)) h
  have byte (r : Port × Bool) (h : x.dataByte b = r) : exec (.dataSymbol p b) s = .next (s.portFrame p r) :=
    congrArg (fun r => Host.Outcome.next (s.portFrame p r)) h
  have same : port x = s := s.setPort_self p
  have stays : s.portFrame p (x, false) = s := s.portFrame_self p
  refine ⟨fun up => ?_, fun down => ⟨?_, ?_, ?_, ?_, ?_, ?_⟩, fun up => ⟨fun noFrame => ⟨?_, ?_, ?_⟩, fun l frame => ⟨?_, fun room => ?_, fun full => ?_, fun bad => ?_, fun q good => ⟨fun full => ?_, fun room => ?_⟩⟩, fun c event => ?_⟩⟩
  · rw [aligned x (by rw [Port.linkAligned, up]), same]
  · exact aligned _ (by rw [Port.linkAligned, down])
  · rw [started _ (Port.startFrame_down down), stays]
  · rw [byte _ (Port.dataByte_none (.inl down) b), stays]
  · exact exec_frameReceived_none (.inl down)
  · exact congrArg Host.Outcome.next (State.linkLoss_down down)
  · exact congrArg Host.Outcome.next (State.linkLoss_down down)
  · rw [started _ (Port.startFrame_up up), noFrame]
    exact congrArg Host.Outcome.next (State.send_nil _)
  · rw [byte _ (Port.dataByte_none (.inr noFrame) b), stays]
  · exact exec_frameReceived_none (.inr noFrame)
  · rw [started _ (Port.startFrame_up up), frame]
    rfl
  · rw [byte _ (Port.dataByte_some up frame b), if_neg (Nat.not_le.mpr room)]
    exact congrArg Host.Outcome.next (State.send_nil _)
  · rw [byte _ (Port.dataByte_some up frame b), if_pos full]
    rfl
  · rw [exec_frameReceived up frame, bad]
    rfl
  · have busy := Port.takeRequest_full (x := { x with rx := none }) up full q
    rw [exec_frameReceived up frame, good]
    dsimp only
    rw [busy]
    exact congrArg Host.Outcome.next (State.send_nil _)
  · have joins := Port.takeRequest_room (x := { x with rx := none }) room q
    rw [exec_frameReceived up frame, good]
    dsimp only
    rw [joins]
    simp only [decide_eq_true_eq]
    rfl
  · have lost (t : State) (h : s.linkLoss p = t) : exec c s = .next t := by
      rcases event with rfl | rfl
      · exact congrArg Host.Outcome.next h
      · exact congrArg Host.Outcome.next h
    refine ⟨fun still => lost _ (State.linkLoss_served up (State.unserved_eq_none still)), fun q qs idle queue => ?_⟩
    have waits := State.unserved_eq_some idle queue
    intro k
    refine ⟨fun d check => ?_, fun st check => ?_⟩
    · rw [lost _ (State.linkLoss_of_ok up waits check), Port.linkLost_eq]
      have kept : (if ({ x with serving := some k, passes := k } : Port).serving.isSome then x.queue.take 1 else []) = [q] := by
        rw [queue]
        rfl
      exact congrArg (fun l => Host.Outcome.next ((port { x with
        link := .down, rx := none, queue := l, serving := some k, passes := k }).send [d])) kept
    · rw [lost _ (State.linkLoss_of_error up waits check), Port.linkLost_eq]
      have gone : (if x.serving.isSome then x.queue.take 1 else []) = [] := by
        rw [idle]
        rfl
      exact congrArg (fun l => Host.Outcome.next (port { x with link := .down, rx := none, queue := l })) gone

end Sys2Proof.Machine
end

section
/-!
The counter bank (11.2): an increment at its counter, and what the requests do to the counters selected.
-/

namespace Sys2Proof.Machine

namespace Bank

variable (x : Bank)

/-! ### A counter and its place -/

theorem cell_setCell_same (c : Counter) (v : CounterCell) : (x.setCell c v).cell c = v := by
  cases c <;> simp [cell, setCell]

theorem svcCounterKind_inj {j k : SvcCounter} (h : svcCounterKind j = svcCounterKind k) : j = k := by
  cases j <;> cases k <;> first | rfl | exact absurd h (by decide)

theorem cell_setCell_service {d : Counter} {k : SvcCounter} {i : Svc} (h : d ≠ .service k i) (v : CounterCell) :
    (x.setCell (.service k i) v).cell d = x.cell d := by
  cases d with
  | service j l =>
    show (x.services.set i (x.services[i].set (svcCounterKind k) v))[l][svcCounterKind j] = x.services[l][svcCounterKind j]
    by_cases same : i = l
    · subst same
      have apart : (svcCounterKind k : Nat) ≠ svcCounterKind j := fun e => h (by rw [svcCounterKind_inj (Fin.ext e)])
      simp [apart]
    · have apart : (i : Nat) ≠ l := fun e => same (Fin.ext e)
      simp [apart]
  | archiveTimeouts => rfl
  | logRecordsLost => rfl
  | framesDiscarded p => rfl

/-- A part-wide counter, by its place. -/
theorem part_set_other {j k : Fin 5} (h : j ≠ k) (v : CounterCell) : (x.part.set k v)[j] = x.part[j] := by
  have apart : (k : Nat) ≠ j := fun e => h (Fin.ext e.symm)
  simp [apart]

theorem cell_setCell_other {c d : Counter} (h : d ≠ c) (v : CounterCell) : (x.setCell c v).cell d = x.cell d := by
  match c, d with
  | .service k i, d => exact x.cell_setCell_service h v
  | .archiveTimeouts, .service _ _ => rfl
  | .logRecordsLost, .service _ _ => rfl
  | .framesDiscarded _, .service _ _ => rfl
  | .archiveTimeouts, .archiveTimeouts => exact absurd rfl h
  | .archiveTimeouts, .logRecordsLost => exact x.part_set_other (by decide) v
  | .archiveTimeouts, .framesDiscarded p => exact x.part_set_other (fun e => absurd (congrArg Fin.val e) (Nat.succ_ne_zero _)) v
  | .logRecordsLost, .archiveTimeouts => exact x.part_set_other (by decide) v
  | .logRecordsLost, .logRecordsLost => exact absurd rfl h
  | .logRecordsLost, .framesDiscarded p =>
    exact x.part_set_other (fun e => absurd (Nat.succ.inj (congrArg Fin.val e)) (Nat.succ_ne_zero _)) v
  | .framesDiscarded p, .archiveTimeouts =>
    exact x.part_set_other (fun e => absurd (congrArg Fin.val e).symm (Nat.succ_ne_zero _)) v
  | .framesDiscarded p, .logRecordsLost =>
    exact x.part_set_other (fun e => absurd (Nat.succ.inj (congrArg Fin.val e).symm) (Nat.succ_ne_zero _)) v
  | .framesDiscarded p, .framesDiscarded q =>
    refine x.part_set_other (fun e => h ?_) v
    have same : q.val + 2 = p.val + 2 := congrArg Fin.val e
    rw [Fin.ext (Nat.add_right_cancel same)]

theorem setCell_mask (c : Counter) (v : CounterCell) : (x.setCell c v).mask = x.mask := by
  cases c <;> rfl

/-- R187: the notice of an increment, by the value that it brings its counter to. -/
theorem alertNotice_eq (time : Option Mi) (c : Counter) :
    x.alertNotice time c =
      let raised (kind : NoticeKind) : List Instr :=
        if x.mask.getLsbD (counterKind c) then [notice kind (counterService c) time (.counter c)] else []
      if (x.cell c).value + 1 = 2 ^ 31 then raised .counterHalf
      else if (x.cell c).value + 1 = 2 ^ 32 - 1 then raised .counterFull else [] := by
  unfold alertNotice CounterCell.alert max32
  split_ifs <;> rfl

/-! ### The counters selected (R188, R189) -/

theorem selected_change (f : CounterCell → CounterCell) (k : Selection) : (x.change f k).selected k = (x.selected k).map f := by
  have mapped {n : Nat} (v : Vector CounterCell n) : (mapVec f v).toList = v.toList.map f := by
    apply List.ext_getElem
    · simp
    · intro j _ _
      simp
  cases k with
  | service i =>
    show ((x.services.set i (mapVec f x.services[i]))[i]).toList = x.services[i].toList.map f
    rw [← mapped]
    simp
  | part => exact mapped x.part

end Bank

theorem CounterCell.bump_full {c : CounterCell} (h : 2 ^ 32 - 1 ≤ c.value) : c.bump = c := if_pos h

theorem CounterCell.bump_eq {c : CounterCell} (h : c.value < 2 ^ 32 - 1) :
    c.bump =
      { value := c.value + 1, half := c.half || decide (c.value + 1 = 2 ^ 31), full := c.full || decide (c.value + 1 = 2 ^ 32 - 1)
        seenHalf := if c.value + 1 = 2 ^ 31 then 0 else c.seenHalf
        seenFull := if c.value + 1 = 2 ^ 32 - 1 then 0 else c.seenFull } := by
  rw [← beq_eq_decide, ← beq_eq_decide]
  exact if_neg (Nat.not_le.mpr h)

theorem selection_bad {n : Nat} (h : 17 ≤ n) : selection n = none := by
  rw [selection, asFin_eq_none.mpr (Nat.le_of_succ_le h)]
  exact if_neg (by omega)

theorem selection_service (i : Svc) : selection i.val = some (.service i) := by rw [selection, asFin_val]

section
variable (rq : Req) (s : State) {n : Nat}

/-- The three requests of a selector that selects nothing. -/
theorem exec_counters_bad (h : selection n = none) :
    exec (.readCounters rq n) s = .next ((s.arrive (.readCounters rq n)).respond rq .badArgument .nothing) ∧
    exec (.clearAlerts rq n) s = .next ((s.arrive (.clearAlerts rq n)).respond rq .badArgument .nothing) ∧
    exec (.clearCounters rq n) s = .next ((s.arrive (.clearCounters rq n)).respond rq .badArgument .nothing) := by
  refine ⟨congrArg Host.Outcome.next ?_, congrArg Host.Outcome.next ?_, congrArg Host.Outcome.next ?_⟩
  all_goals
    rw [h]
    rfl

/-- The three requests, on the counters selected. -/
theorem exec_counters {k : Selection} (h : selection n = some k) :
    exec (.readCounters rq n) s =
      .next ({ s.arrive (.readCounters rq n) with bank := s.bank.change (·.seenBy rq.port) k }.respond rq .ok
        (.counters ((s.bank.selected k).map CounterCell.view))) ∧
    exec (.clearAlerts rq n) s =
      .next ({ s.arrive (.clearAlerts rq n) with bank := s.bank.change (·.clearedBy rq.port) k }.respond rq .ok
        (.alerts (Bank.flagsOf ((s.bank.selected k).map fun c : CounterCell => c.clearedBy rq.port)))) ∧
    exec (.clearCounters rq n) s =
      .next ({ s.arrive (.clearCounters rq n) with bank := s.bank.change (fun _ => .zero) k }.respond rq .ok .nothing) := by
  rw [← Bank.selected_change]
  refine ⟨congrArg Host.Outcome.next ?_, congrArg Host.Outcome.next ?_, congrArg Host.Outcome.next ?_⟩
  all_goals
    rw [h]
    rfl

end

/-- Settles O56: an increment by the value of its counter, and the requests by what their selector selects. -/
theorem countersCountAndAreCleared : Obligations.CountersCountAndAreCleared := by
  refine ⟨fun s c => ?_, fun s rq n kinds => ?_⟩
  · intro x atHalf atFull svc raised
    have bank : ((s.arrive (.counterIncrement c)).bankAdd c).bank = s.bank.setCell c (s.bank.cell c).bump := rfl
    have owner : svc = counterService c := by cases c <;> rfl
    refine ⟨_, rfl, fun full => ?_, fun room => ?_, fun d other => ?_, ?_, ?_⟩
    · rw [bank, Bank.cell_setCell_same]
      exact CounterCell.bump_full full
    · rw [bank, Bank.cell_setCell_same]
      exact CounterCell.bump_eq room
    · rw [bank, s.bank.cell_setCell_other other]
    · exact s.bank.setCell_mask c _
    · have sent := s.bank.alertNotice_eq s.station.time c
      rw [← owner] at sent
      exact congrArg (fun l => { s.arrive (.counterIncrement c) with
        bank := s.bank.setCell c (s.bank.cell c).bump
        inFlight := (s.arrive (.counterIncrement c)).inFlight ++ l }) sent
  · intro m r a z seen clearedHalf clearedFull cleared zero flags acts
    refine ⟨?_, fun bad c event => ?_, ?_, ?_⟩
    · have changed : (clampMask 15 kinds).changed = decide ¬ kinds < 2 ^ 15 := by
        rw [Bool.eq_iff_iff, clampMask_changed, decide_eq_true_iff, Nat.not_lt]
      refine Eq.trans ?_ (congrArg Host.Outcome.next (State.respondOk_decide_not _ rq (kinds < 2 ^ 15) .nothing))
      rw [← changed]
      rfl
    · obtain ⟨read, clear, zeroes⟩ := exec_counters_bad rq s (selection_bad bad)
      rcases event with rfl | rfl | rfl
      · exact read
      · exact clear
      · exact zeroes
    · rintro i rfl
      exact exec_counters rq s (selection_service i)
    · rintro rfl
      exact exec_counters rq s (n := 16) (k := .part) rfl

end Sys2Proof.Machine
end

section
/-!
The notice router (11.1): which ports a notice reaches, and the requests about routes, modes and queues.
-/

namespace Sys2Proof.Machine

/-! ### A route and a notice (R184) -/

/-- R184: the service number agrees with a route where its mask does not hide a bit. -/
theorem maskedService_iff (i : Svc) (value mask : BitVec 4) :
    ((BitVec.ofNat 4 i.val ^^^ value) &&& ~~~mask == 0) = true ↔
      ∀ b < 4, mask.getLsbD b = false → value.getLsbD b = i.val.testBit b := by
  rw [beq_iff_eq]
  constructor
  · intro h b hb open_
    have bit := congrArg (·.getLsbD b) h
    simp only [BitVec.getLsbD_and, BitVec.getLsbD_xor, BitVec.getLsbD_not, BitVec.getLsbD_ofNat, hb, open_] at bit
    simp at bit
    exact bit.symm
  · intro h
    refine BitVec.eq_of_getLsbD_eq fun b hb => ?_
    simp only [BitVec.getLsbD_and, BitVec.getLsbD_xor, BitVec.getLsbD_not, BitVec.getLsbD_ofNat, hb]
    cases hidden : mask.getLsbD b with
    | true => simp
    | false => simp [h b hb hidden]

theorem Route.matches_iff (r : Route) (n : Notice) :
    r.matches n = true ↔ r.enabled = true ∧ (∀ k, r.kind = some k → k = n.kind) ∧
      match n.svc with
      | none => r.mask = 0xF#4
      | some i => ∀ b < 4, r.mask.getLsbD b = false → r.value.getLsbD b = i.val.testBit b := by
  rw [Route.matches, Bool.and_eq_true, Bool.and_eq_true, and_assoc]
  refine and_congr Iff.rfl (and_congr ?_ ?_)
  · cases r.kind with
    | none => exact iff_of_true rfl nofun
    | some k =>
      rw [beq_iff_eq]
      exact ⟨fun h j e => Option.some.inj e ▸ h, fun h => h k rfl⟩
  · cases n.svc with
    | none => exact beq_iff_eq
    | some i => exact maskedService_iff i r.value r.mask

theorem Router.targets_iff (x : Router) (n : Notice) (p : PortNo) :
    x.targets n p = true ↔ ∃ k : Fin 16, x.routes[k].port = p ∧ x.routes[k].matches n = true := by
  simp [Router.targets]

/-! ### The notice queue of a port (R185, R186) -/

namespace PortNotices

variable {x : PortNotices}

theorem lineLevel_eq (mode : AttentionMode) (queue : List NoticeRecord) : lineLevel mode queue = decide (mode = .level ∧ queue ≠ []) := by
  rw [Bool.eq_iff_iff, lineLevel_iff, decide_eq_true_iff]

theorem enqueue_eq (x : PortNotices) (n : Notice) :
    x.enqueue n =
      if x.queue.length < 64 then
        { x with
          queue := x.queue ++ [⟨n, x.dropped⟩], dropped := 0, line := decide (x.mode = AttentionMode.level)
          owed := if x.mode = AttentionMode.pulse then min 64 (x.owed + 1) else x.owed }
      else { x with dropped := min (2 ^ 32 - 1) (x.dropped + 1) } := by
  have line : lineLevel x.mode (x.queue ++ [⟨n, x.dropped⟩]) = decide (x.mode = .level) := by
    rw [lineLevel_eq]
    exact decide_eq_decide.mpr (and_iff_left (List.concat_ne_nil _ _))
  by_cases room : x.queue.length < 64
  · refine ((if_neg (Nat.not_le.mpr room)).trans ?_).trans (if_pos room).symm
    dsimp only
    rw [line]
    cases mode : x.mode <;> rfl
  · rw [if_neg room]
    exact if_pos (Nat.not_lt.mp room)

theorem pop_eq (x : PortNotices) :
    x.pop = { x with queue := x.queue.tail, line := decide (x.mode = .level ∧ x.queue.tail ≠ []) } := by
  rw [← lineLevel_eq]
  rfl

theorem Good.line_eq (h : x.Good) : x.line = decide (x.mode = .level ∧ x.queue ≠ []) := by
  obtain ⟨_, _, _, line, _⟩ := h
  rw [Bool.eq_iff_iff, line, decide_eq_true_iff]

theorem Good.setMode_level (h : x.Good) : x.setMode .level = { x with mode := .level, owed := 0, line := decide (x.queue ≠ []) } := by
  by_cases same : x.mode = .level
  · have none := h.2.2.1 same
    have line : x.line = decide (x.queue ≠ []) := by
      rw [h.line_eq, same]
      simp
    rw [PortNotices.setMode, if_pos same, ← line, ← same, ← none]
  · rw [PortNotices.setMode, if_neg same, lineLevel_eq]
    simp

theorem Good.setMode_pulse (h : x.Good) : x.setMode .pulse = { x with mode := .pulse, line := false } := by
  by_cases same : x.mode = .pulse
  · have line := h.line_eq
    rw [PortNotices.setMode, if_pos same]
    rw [same, decide_eq_false (by simp)] at line
    rw [← same, ← line]
  · rw [PortNotices.setMode, if_neg same, lineLevel_eq]
    simp

end PortNotices

/-! ### SET ROUTE (R183) -/

theorem allNoticeKinds_getElem? (k : NoticeKind) : allNoticeKinds[noticeCode k]? = some k := by cases k <;> rfl

theorem routeKind_code (kind : Option NoticeKind) :
    routeKind (match kind with
      | none => 255
      | some j => noticeCode j) = some kind := by
  cases kind with
  | none => rfl
  | some k =>
    have code : noticeCode k ≠ 255 := by cases k <;> decide
    rw [routeKind, if_neg code, allNoticeKinds_getElem?]
    rfl

theorem routeKind_bad {n : Nat} (high : 19 ≤ n) (other : n ≠ 255) : routeKind n = none := by
  rw [routeKind, if_neg other, List.getElem?_eq_none high]
  rfl

/-- R183: what a route that can be read has in range. -/
theorem readRoute_eq_none {a : RouteArgs}
    (h : 2 ≤ a.enable ∨ (19 ≤ a.kind ∧ a.kind ≠ 255) ∨ 16 ≤ a.value ∨ 16 ≤ a.mask ∨ 3 ≤ a.port) : readRoute a = none := by
  refine Option.eq_none_iff_forall_ne_some.mpr fun r read => ?_
  obtain ⟨enabled, yes, rest⟩ := Option.bind_eq_some_iff.mp read
  obtain ⟨kind, known, rest⟩ := Option.bind_eq_some_iff.mp rest
  obtain ⟨value, hvalue, rest⟩ := Option.bind_eq_some_iff.mp rest
  obtain ⟨mask, hmask, rest⟩ := Option.bind_eq_some_iff.mp rest
  obtain ⟨port, hport, _⟩ := Option.bind_eq_some_iff.mp rest
  rcases h with h | ⟨high, other⟩ | h | h | h
  · exact absurd (yesNo_eq_some yes) (Nat.not_lt.mpr h)
  · exact nomatch (routeKind_bad high other).symm.trans known
  · exact nomatch (asFin_eq_none.mpr h).symm.trans hvalue
  · exact nomatch (asFin_eq_none.mpr h).symm.trans hmask
  · exact nomatch (asFin_eq_none.mpr h).symm.trans hport

theorem readRoute_eq_some {a : RouteArgs} {enabled : Bool} {kind : Option NoticeKind} {target : PortNo}
    (yes : a.enable = if enabled then 1 else 0) (known : a.kind = match kind with
      | none => 255
      | some j => noticeCode j) (value : a.value < 16) (mask : a.mask < 16) (port : a.port = target.val) :
    readRoute a = some ⟨enabled, kind, BitVec.ofNat 4 a.value, BitVec.ofNat 4 a.mask, target⟩ := by
  have at_value : asFin 16 a.value = some ⟨a.value, value⟩ := asFin_eq_some.mpr rfl
  have at_mask : asFin 16 a.mask = some ⟨a.mask, mask⟩ := asFin_eq_some.mpr rfl
  simp only [readRoute, yes, known, port, yesNo_byte, routeKind_code, at_value, at_mask, asFin_val, Option.bind_eq_bind, Option.bind_some]

theorem exec_setRoute_bad (rq : Req) (s : State) {n : Nat} {a : RouteArgs} (h : 16 ≤ n ∨ readRoute a = none) :
    exec (.setRoute rq n a) s = .next ((s.arrive (.setRoute rq n a)).respond rq .badArgument .nothing) := by
  refine congrArg Host.Outcome.next ?_
  split
  · next k r number read =>
    rcases h with out | bad
    · exact nomatch (asFin_eq_none.mpr out).symm.trans number
    · exact nomatch bad.symm.trans read
  · rfl

theorem exec_setRoute (rq : Req) (s : State) (k : Fin 16) {a : RouteArgs} {r : Route} (h : readRoute a = some r) :
    exec (.setRoute rq k.val a) s =
      .next ({ s.arrive (.setRoute rq k.val a) with
        router := { s.router with routes := s.router.routes.set k r } }.respond rq .ok (.route r)) := by
  refine congrArg Host.Outcome.next ?_
  rw [asFin_val, h]
  rfl

/-! ### SET ATTENTION MODE and the line (R186) -/

theorem exec_setAttentionMode_bad (rq : Req) (s : State) {n mode : Nat} (h : 3 ≤ n ∨ 2 ≤ mode) :
    exec (.setAttentionMode rq n mode) s = .next ((s.arrive (.setAttentionMode rq n mode)).respond rq .badArgument .nothing) := by
  refine congrArg Host.Outcome.next ?_
  split
  · next p m number read =>
    rcases h with out | bad
    · exact nomatch (asFin_eq_none.mpr out).symm.trans number
    · obtain ⟨j, rfl⟩ : ∃ j, mode = j + 2 := ⟨mode - 2, by omega⟩
      cases read
  · rfl

theorem exec_setAttentionMode (rq : Req) (s : State) (p : PortNo) {n : Nat} {mode : AttentionMode} (h : modeOf n = some mode) :
    exec (.setAttentionMode rq p.val n) s =
      .next (((s.arrive (.setAttentionMode rq p.val n)).setNotices p (s.router.ports[p].setMode mode)).respond rq .ok .nothing) := by
  refine congrArg Host.Outcome.next ?_
  rw [asFin_val, h]
  rfl

theorem State.setNotices_self (s : State) (p : PortNo) : s.setNotices p s.router.ports[p] = s := by
  unfold State.setNotices
  rw [Fin.getElem_fin, Vector.set_getElem_self]

theorem routeBytes_eq (r : Route) :
    routeBytes r = [boolByte r.enabled, BitVec.ofNat 8 (match r.kind with
      | none => 255
      | some k => noticeCode k), BitVec.ofNat 8 r.value.toNat, BitVec.ofNat 8 r.mask.toNat, BitVec.ofNat 8 r.port.val] := by
  simp [routeBytes, be] <;> rfl

/-- Settles O55: a notice at each port by its routes, and the requests by the values they carry. -/
theorem noticesReachTheirRoutesAndPorts : Obligations.NoticesReachTheirRoutesAndPorts := by
  refine ⟨⟨fun s n => ?_, fun s rq => ?_⟩, fun s rq n mode a p => ?_⟩
  · intro fits
    have reached (p : PortNo) : (∃ k : Fin 16, s.router.routes[k].port = p ∧ fits s.router.routes[k]) ↔ s.router.targets n p = true := by
      rw [Router.targets_iff]
      exact exists_congr fun k => and_congr Iff.rfl (Route.matches_iff _ n).symm
    refine ⟨_, rfl, rfl, fun p => ?_⟩
    intro x
    have port : ((s.arrive (.noticeArrival n)).router.take n).ports[p] = if s.router.targets n p then x.enqueue n else x :=
      Router.take_ports ..
    rw [reached]
    refine ⟨fun out => port.trans (if_neg out), fun into => (port.trans (if_pos into)).trans (x.enqueue_eq n)⟩
  · intro u x
    refine ⟨fun empty => ?_, fun r rs queue => ?_⟩
    · refine congrArg Host.Outcome.next ?_
      rw [show (s.arrive (.readNotice rq)).router.ports[rq.port].queue = [] from empty]
      rfl
    · have popped : x.pop = { x with queue := rs, line := decide (x.mode = .level ∧ rs ≠ []) } := by
        rw [PortNotices.pop_eq, queue, List.tail_cons]
      refine congrArg Host.Outcome.next ?_
      rw [show (s.arrive (.readNotice rq)).router.ports[rq.port].queue = r :: rs from queue]
      exact congrArg (fun y => (u.setNotices rq.port y).respond rq .ok (.notice r)) popped
  · intro c d x port
    refine ⟨fun bad => exec_setRoute_bad rq s (bad.imp_right readRoute_eq_none), ?_, exec_setAttentionMode_bad rq s, ?_, fun pulse owes => ?_,
      fun still => ?_⟩
    · rintro k enabled kind target rfl yes known value mask hport
      refine ⟨exec_setRoute rq s k (readRoute_eq_some yes known value mask hport), ?_⟩
      show routeBytes _ = _
      have byte : boolByte enabled = BitVec.ofNat 8 a.enable := by
        rw [yes]
        cases enabled <;> rfl
      rw [routeBytes_eq, byte, ← hport]
      simp only [BitVec.toNat_ofNat, Nat.mod_eq_of_lt value, Nat.mod_eq_of_lt mask, List.map_cons, List.map_nil, known] <;> rfl
    · rintro rfl good
      refine ⟨?_, ?_⟩
      · rintro rfl
        have set := exec_setAttentionMode rq s p (n := 0) (mode := .level) rfl
        rwa [good.setMode_level] at set
      · rintro rfl
        have set := exec_setAttentionMode rq s p (n := 1) (mode := .pulse) rfl
        rwa [good.setMode_pulse] at set
    · exact congrArg (fun y => Host.Outcome.next (s.setNotices p y)) (if_pos ⟨pulse, owes⟩)
    · have none : ¬ (x.mode = .pulse ∧ 0 < x.owed) := by
        rintro ⟨pulse, owes⟩
        rcases still with level | zero
        · rw [level] at pulse
          cases pulse
        · exact absurd zero (Nat.ne_of_gt owes)
      exact (congrArg (fun y => Host.Outcome.next (s.setNotices p y)) (if_neg none)).trans (congrArg Host.Outcome.next (s.setNotices_self p))

end Sys2Proof.Machine
end

section
/-!
The reads of services and of the parts (R6, R35, R69, R72, R92, R117, R141, R181).
-/

namespace Sys2Proof.Machine

/-! ### READ STATUS, part by part (R181) -/

namespace State

variable {s : State} {rq : Req} {n : Nat}

theorem halfStatus_eq (s : State) (rq : Req) (n : Nat) :
    s.halfStatus rq n = s.shares.find? fun h => decide (h.rq = rq ∧ h.selector = n) := by
  refine congrArg (s.shares.find? ·) (funext fun h => ?_)
  rw [beq_eq_decide, beq_eq_decide, Bool.decide_and]

theorem halfStatus_eq_none (h : ∀ h ∈ s.shares, ¬ (h.rq = rq ∧ h.selector = n)) : s.halfStatus rq n = none := by
  rw [halfStatus_eq]
  exact List.find?_eq_none.mpr fun x mem => by
    rw [decide_eq_true_iff]
    exact h x mem

theorem exec_readStatus_second {h : HalfStatus} (half : s.halfStatus rq n = some h) :
    exec (.readStatus rq n) s =
      .next ({ s.arrive (.readStatus rq n) with shares := s.shares.erase h }.respond rq .ok (s.withSecondShare h.share)) := by
  refine congrArg Host.Outcome.next ?_
  rw [show (s.arrive (.readStatus rq n)).halfStatus rq n = some h from half]
  rfl

section
variable (fresh : s.halfStatus rq n = none)
include fresh

theorem exec_readStatus_first {x : StatusShare} (first : s.firstShare n = some x) :
    exec (.readStatus rq n) s =
      .next ({ s.arrive (.readStatus rq n) with shares := s.shares ++ [HalfStatus.mk rq n x] }.send [.readStatus rq n]) := by
  refine congrArg Host.Outcome.next ?_
  rw [show (s.arrive (.readStatus rq n)).halfStatus rq n = none from fresh,
    show (s.arrive (.readStatus rq n)).firstShare n = some x from first]
  rfl

theorem exec_readStatus_whole (whole : s.firstShare n = none) {a : Answer} (part : s.statusPart rq.port n = some a) :
    exec (.readStatus rq n) s = .next ((s.arrive (.readStatus rq n)).respond rq .ok a) := by
  refine congrArg Host.Outcome.next ?_
  rw [show (s.arrive (.readStatus rq n)).halfStatus rq n = none from fresh,
    show (s.arrive (.readStatus rq n)).firstShare n = none from whole,
    show (s.arrive (.readStatus rq n)).statusPart rq.port n = some a from part]

theorem exec_readStatus_bad (whole : s.firstShare n = none) (part : s.statusPart rq.port n = none) :
    exec (.readStatus rq n) s = .next ((s.arrive (.readStatus rq n)).respond rq .badArgument .nothing) := by
  refine congrArg Host.Outcome.next ?_
  rw [show (s.arrive (.readStatus rq n)).halfStatus rq n = none from fresh,
    show (s.arrive (.readStatus rq n)).firstShare n = none from whole,
    show (s.arrive (.readStatus rq n)).statusPart rq.port n = none from part]
  rfl

end

/-- The parts that one block takes whole. -/
theorem firstShare_eq_none (h : n = 0 ∨ n = 17 ∨ 19 ≤ n) : s.firstShare n = none := by
  have other : n ≠ 18 := by omega
  rw [firstShare, if_neg other]
  by_cases zero : n = 0
  · exact if_pos zero
  · rw [if_neg zero, asFin_eq_none.mpr (by omega)]
    rfl

theorem firstShare_service (i : Svc) : s.firstShare (i.val + 1) = some (.service i s.sched[i].state s.sched[i].stopPending) := by
  rw [firstShare, if_neg (by omega), if_neg (Nat.succ_ne_zero _), Nat.add_sub_cancel, asFin_val]
  rfl

theorem statusPart_eq_none (h : 20 ≤ n) (reader : PortNo) : s.statusPart reader n = none := by
  rw [statusPart, if_neg (by omega), if_neg (by omega), if_neg (by omega)]

/-- R181: the port part, port by port. -/
theorem portViews_eq (s : State) :
    allPorts.map s.portView = s.ports.toList.map fun x => ⟨x.strap, x.role, decide (x.link = .up), x.queue.length⟩ := by
  apply List.ext_getElem
  · simp [allPorts]
  · intro k hk _
    simp [allPorts, portView, beq_eq_decide]

/-- R141: the recorder's share, its counts by the state of the slots. -/
theorem recorderView_eq (s : State) :
    let y := s.store
    let those (p : SlotState → Prop) [DecidablePred p] : Nat := (y.slots.filter fun e => decide (p e.2.state)).length
    let unheld := (y.slots.filter fun e : Nat × Slot => e.2.isArchived && decide (e.2.holdCount = 0)).length
    s.recorderView =
      { slotCount := y.slotCount, free := y.slotCount - y.slots.length, filling := those (· = .filling)
        sealed := those (· = .sealed), inTransfer := those (· = .inTransfer)
        archived := (y.slots.filter fun e : Nat × Slot => e.2.isArchived).length, archivedUnheld := unheld
        reusable := y.slotCount - y.slots.length + unheld, sealCount := y.sealCount, reserve0 := y.reserve0
        reserve1 := y.reserve1, reserve2 := y.reserve2, threshold := y.threshold, backlog := those (· = .sealed)
        backlogState := y.backlog
        services := (List.finRange 16).map fun i : Svc =>
          let r := s.recorder[i]
          let slot := r.span.bind (·.slot)
          { run := r.run, enable := r.enable, span := r.span.map (·.start), slot := slot, state := r.state
            keep := (slot.bind fun k => slotAt k y.slots).map (·.keepUsed) } } := by
  intro y those unheld
  have filling : (s.store.those Slot.isFilling).length = those (· = .filling) :=
    congrArg (fun p => (y.slots.filter p).length) (funext fun _ => beq_eq_decide ..)
  have sealed' : (s.store.those Slot.isSealed).length = those (· = .sealed) :=
    congrArg (fun p => (y.slots.filter p).length) (funext fun _ => beq_eq_decide ..)
  have moving : (s.store.those Slot.isInTransfer).length = those (· = .inTransfer) :=
    congrArg (fun p => (y.slots.filter p).length) (funext fun _ => beq_eq_decide ..)
  have reusable : (s.store.those Slot.isReusable).length = unheld :=
    congrArg (fun p => (y.slots.filter p).length) (funext fun e => by rw [Slot.isReusable, beq_eq_decide])
  have counted : s.store.backlogCount = those (· = .sealed) := sealed'
  rw [recorderView, filling, sealed', moving, reusable, counted, Store.reusableCount, reusable]
  rfl

end State

/-- R117: the compliance part, its counts as lengths. -/
theorem Compliance.view_eq (x : Compliance) :
    x.view =
      { profiles := x.profiles, refs := x.refs, lastWritten := x.lastWritten
        oldestHeld := max 1 (x.lastWritten - 4095), recordsHeld := x.log.length, mark := x.mark
        uncollected := (x.log.filter fun r => decide (x.mark < r.seq)).length
        writing := x.writing.map fun r => (r.seq, r.svc)
        waiting := (x.waiting.filter fun w => decide (w ≠ .clearReferences)).length } := by
  have clear : (fun w : Waiting => !w.isClear) = fun w => decide (w ≠ .clearReferences) := funext fun w => by
    cases w <;> simp [Waiting.isClear]
  rw [Compliance.view, List.countP_eq_length_filter, List.countP_eq_length_filter, clear]
  rfl

/-! ### The reads of a service -/

theorem ServiceSched.scheduleView_eq (x : ServiceSched) (time : Option Mi) (groups : Vector (BitVec 16) 4) :
    x.scheduleView time groups =
      { state := x.state, stopPending := x.stopPending, time := time
        openSeg := x.openSeg.map fun g =>
          { inst := g.inst, id := g.id, cls := g.cls, profile := g.profile, stagedStart := g.stagedStart
            actualStart := g.actualStart, planned := g.planned, elapsed := time.getD 0 - g.actualStart
            late := g.late, referenceLost := g.referenceLost, incomplete := g.incomplete }
        staging := x.staging.map fun d => (d, time.any fun m => decide (d.start ≤ m))
        closing := x.closing.map fun g =>
          { inst := g.inst, id := g.id, cause := g.cause, actualStart := g.actualStart, endMi := g.endMi
            needsSummary := decide (g.cause ≠ some .skipped), meterReceived := g.meterSummary.isSome
            captReceived := g.captionSummary.isSome }
        view := x.view, viewFrom := x.viewFrom, groups := groups } := by
  have needs (g : Segment) : g.needsSummaries = decide (g.cause ≠ some .skipped) := by
    rw [Bool.eq_iff_iff, g.needsSummaries_iff, decide_eq_true_iff]
  simp only [scheduleView, needs]
  cases time <;> rfl

theorem MeterSvc.view_eq (y : MeterSvc) :
    y.view =
      { run := y.run, lastBlock := y.lastBlock, lastShort := y.lastShort
        segment := (y.segments.getLast?.filter fun g => decide (g.endMi = none)).map MeterSegment.view } := by
  have current : y.current = y.segments.getLast?.filter fun g => decide (g.endMi = none) := by
    unfold MeterSvc.current
    cases y.segments.getLast? with
    | none => rfl
    | some g =>
      rw [Option.filter_some]
      dsimp only
      cases g.endMi <;> rfl
  rw [MeterSvc.view, current]

section
variable (rq : Req) (s : State)

/-- The three reads of a service that there is not. -/
theorem exec_reads_bad {n : Nat} (h : 16 ≤ n) :
    exec (.readSchedule rq n) s = .next ((s.arrive (.readSchedule rq n)).respond rq .badArgument .nothing) ∧
    exec (.readSurvey rq n) s = .next ((s.arrive (.readSurvey rq n)).respond rq .badArgument .nothing) ∧
    exec (.readMeter rq n) s = .next ((s.arrive (.readMeter rq n)).respond rq .badArgument .nothing) := by
  refine ⟨congrArg Host.Outcome.next ?_, congrArg Host.Outcome.next ?_, congrArg Host.Outcome.next ?_⟩
  all_goals
    rw [asFin_eq_none.mpr h]
    rfl

theorem exec_reads (i : Svc) :
    exec (.readSchedule rq i.val) s =
      .next ((s.arrive (.readSchedule rq i.val)).respond rq .ok (.schedule (s.sched[i].scheduleView s.station.time s.groups))) ∧
    exec (.readSurvey rq i.val) s =
      .next ((s.arrive (.readSurvey rq i.val)).respond rq .ok (.survey s.meter[i].survey.view)) ∧
    exec (.readMeter rq i.val) s =
      .next ((s.arrive (.readMeter rq i.val)).respond rq .ok (.meter s.meter[i].view)) := by
  refine ⟨congrArg Host.Outcome.next ?_, congrArg Host.Outcome.next ?_, congrArg Host.Outcome.next ?_⟩
  all_goals
    rw [asFin_val]
    rfl

end

/-- Settles O57: each part by its selector and the share that is held, each read by its service. -/
theorem readsOfServicesChangeNothing : Obligations.ReadsOfServicesChangeNothing := by
  intro s rq n answers bad x y those none₁ second hands unheld
  have fresh (h : none₁) : s.halfStatus rq n = none := State.halfStatus_eq_none h
  refine ⟨fun none zero => ?_, fun i none service => ?_, fun h i state stop half share => ?_, fun none part => ?_,
    fun h v half share => ?_, fun none part => ?_, Slot.isArchived_iff, fun none part => ?_, fun none out => ?_, fun out => exec_reads_bad rq s out, ?_⟩
  · exact State.exec_readStatus_whole (fresh none) (State.firstShare_eq_none (.inl zero)) (if_pos zero)
  · have first := State.firstShare_service (s := s) i
    rw [← service] at first
    exact State.exec_readStatus_first (fresh none) first
  · intro k
    have answer := State.exec_readStatus_second ((s.halfStatus_eq rq n).trans half)
    rw [share] at answer
    exact answer
  · subst part
    have whole : s.statusPart rq.port 17 = some (.compliance s.compliance.view) := rfl
    rw [Compliance.view_eq] at whole
    exact State.exec_readStatus_whole (fresh none) (State.firstShare_eq_none (.inr (.inl rfl))) whole
  · have answer := State.exec_readStatus_second ((s.halfStatus_eq rq n).trans half)
    rw [share] at answer
    exact answer
  · subst part
    have first : s.firstShare 18 = some (.recorder s.recorderView) := rfl
    rw [State.recorderView_eq] at first
    exact State.exec_readStatus_first (fresh none) first
  · subst part
    have whole : s.statusPart rq.port 19 = some (.ports (allPorts.map s.portView) rq.port) := rfl
    rw [State.portViews_eq] at whole
    exact State.exec_readStatus_whole (fresh none) (State.firstShare_eq_none (.inr (.inr (Nat.le_refl _)))) whole
  · exact State.exec_readStatus_bad (fresh none) (State.firstShare_eq_none (.inr (.inr (Nat.le_of_succ_le out)))) (State.statusPart_eq_none out _)
  · rintro i rfl
    intro x y v
    have reads := exec_reads rq s i
    rw [ServiceSched.scheduleView_eq, MeterSvc.view_eq] at reads
    exact reads

end Sys2Proof.Machine
end

section
/-!
The reads of the store, the holds, the clip index and the archive queue (R140, R152, R156, R157, R169).
-/

namespace Sys2Proof.Machine

/-! ### The queue (R157) -/

theorem highestSeal_eq_none {l : List (Nat × Slot)} : highestSeal l = none ↔ l = [] := by
  cases l with
  | nil => exact iff_of_true rfl rfl
  | cons e l =>
    refine iff_of_false ?_ (List.cons_ne_nil e l)
    unfold highestSeal
    split
    · exact Option.some_ne_none e
    · split <;> exact Option.some_ne_none _

/-- The entry found has the highest seal number of the list. -/
theorem highestSeal_spec {l : List (Nat × Slot)} {e : Nat × Slot} (h : highestSeal l = some e) :
    e ∈ l ∧ ∀ f ∈ l, f.2.sealNo.getD 0 ≤ e.2.sealNo.getD 0 := by
  induction l generalizing e with
  | nil => cases h
  | cons a l ih =>
    unfold highestSeal at h
    split at h
    · next empty =>
      obtain rfl := Option.some.inj h
      rw [highestSeal_eq_none.mp empty]
      simp
    · next b found =>
      obtain ⟨mem, most⟩ := ih found
      split at h
      · next above =>
        obtain rfl := Option.some.inj h
        exact ⟨List.mem_cons_self, List.forall_mem_cons.mpr ⟨Nat.le_refl _, fun f hf => (most f hf).trans above⟩⟩
      · next below =>
        obtain rfl := Option.some.inj h
        exact ⟨List.mem_cons_of_mem _ mem, List.forall_mem_cons.mpr ⟨Nat.le_of_lt (Nat.not_le.mp below), most⟩⟩

/-- R157: the sealed slots, in the terms of the statements. -/
theorem Store.those_sealed (x : Store) : x.those Slot.isSealed = x.slots.filter fun e => decide (e.2.state = .sealed) :=
  congrArg (x.slots.filter ·) (funext fun _ => beq_eq_decide ..)

/-! ### FIND CLIP (R156) -/

theorem ClipIndex.find_eq_none {x : ClipIndex} {i : Svc} {m : Mi} (h : ∀ e ∈ x.lists[i], e.start ≠ 20 * (m / 20)) : x.find i m = none :=
  List.find?_eq_none.mpr fun e mem same => h e mem (beq_iff_eq.mp same)

theorem ClipIndex.find_eq_some {x : ClipIndex} {i : Svc} {m : Mi} {e : ClipEntry} (mem : e ∈ x.lists[i]) (start : e.start = 20 * (m / 20))
    (rising : (x.lists[i]).Pairwise fun a b => a.start < b.start) : x.find i m = some e := by
  have found : (x.find i m).isSome := List.find?_isSome.mpr ⟨e, mem, beq_iff_eq.mpr start⟩
  obtain ⟨f, hf⟩ := Option.isSome_iff_exists.mp found
  have there : f.start = 20 * (m / 20) := beq_iff_eq.mp (List.find?_some hf :)
  rw [hf, ClipIndex.eq_of_start rising (List.mem_of_find?_eq_some hf) mem (there.trans start.symm)]

section
variable (rq : Req) (s : State)

theorem exec_findClip_bad {n : Nat} (h : 16 ≤ n) (m : Mi) :
    exec (.findClip rq n m) s = .next ((s.arrive (.findClip rq n m)).respond rq .badArgument .nothing) := by
  refine congrArg Host.Outcome.next ?_
  rw [asFin_eq_none.mpr h]
  rfl

theorem exec_findClip (i : Svc) (m : Mi) :
    exec (.findClip rq i.val m) s =
      .next (match s.clips.find i m with
        | none => (s.arrive (.findClip rq i.val m)).respond rq .notFound .nothing
        | some e => (s.arrive (.findClip rq i.val m)).respond rq .ok (.clip (clipAnswer s.store e))) := by
  refine congrArg Host.Outcome.next ?_
  rw [asFin_val]
  rfl

/-! ### READ CHUNK REVIEW (R140) -/

theorem readable_iff (length : Nat) : readable length = true ↔ 1 ≤ length ∧ length ≤ 4096 := by
  rw [readable, Bool.and_eq_true, decide_eq_true_iff, decide_eq_true_iff]
  exact Iff.rfl

theorem exec_readChunkReview_bad {n svc : Nat} {m : Mi} {offset length : Nat}
    (h : 16 ≤ svc ∨ s.store.slotCount ≤ n ∨ length = 0 ∨ 4096 < length) :
    exec (.readChunkReview rq n svc m offset length) s =
      .next ((s.arrive (.readChunkReview rq n svc m offset length)).respond rq .badArgument .nothing) := by
  refine congrArg Host.Outcome.next ?_
  split
  · rfl
  · next i number =>
    have here : ¬ 16 ≤ svc := fun out => nomatch (asFin_eq_none.mpr out).symm.trans number
    refine if_pos ((h.resolve_left here).imp_right fun size => ?_)
    rw [← Bool.not_eq_true, readable_iff]
    omega

theorem exec_readChunkReview {n : Nat} (i : Svc) {m : Mi} {offset length : Nat} (hn : n < s.store.slotCount) (pos : 1 ≤ length)
    (short : length ≤ 4096) :
    exec (.readChunkReview rq n i.val m offset length) s =
      .next ((s.arrive (.readChunkReview rq n i.val m offset length)).respond rq (reviewAnswer (slotAt n s.store.slots) i m offset length).1
        (reviewAnswer (slotAt n s.store.slots) i m offset length).2) := by
  refine congrArg Host.Outcome.next ?_
  rw [asFin_val]
  refine if_neg ?_
  rintro (out | size)
  · exact Nat.not_le.mpr hn out
  · rw [(readable_iff length).mpr ⟨pos, short⟩] at size
    cases size

end

theorem reviewAnswer_held {y : Slot} {i : Svc} {m : Mi} (filling : y.state ≠ .filling) (svc : y.svc = i) (start : y.start = m)
    (offset length : Nat) :
    reviewAnswer (some y) i m offset length =
      (.ok, .review y.state y.sealNo y.length y.holdCount (((((chunkPayload y).take y.length).drop offset)).take length)) := by
  have test : ¬ (y.isFilling || y.svc != i || y.start != m) = true := by
    simp [Slot.isFilling, filling, svc, start]
  exact if_neg test

theorem reviewAnswer_gone {o : Option Slot} {i : Svc} {m : Mi} (h : ∀ y, o = some y → y.state = .filling ∨ y.svc ≠ i ∨ y.start ≠ m)
    (offset length : Nat) : reviewAnswer o i m offset length = (.gone, .nothing) := by
  cases o with
  | none => rfl
  | some y =>
    have test : (y.isFilling || y.svc != i || y.start != m) = true := by
      simpa [Slot.isFilling, or_assoc] using h y rfl
    exact if_pos test

/-! ### READ HOLDS (R152) -/

/-- R152: the live holds and their numbers, in order. -/
theorem State.holdViews_map (s : State) :
    (s.holdViews.map fun v => (v.number, v.hold)) = (List.finRange 32).filterMap fun k => s.holds[k].map fun h => (k, h) := by
  rw [State.holdViews, List.map_filterMap]
  refine congrArg (fun f => (List.finRange 32).filterMap f) (funext fun k => ?_)
  rw [Option.map_map]
  rfl

theorem State.holdViews_slots (s : State) {v : HoldView} (h : v ∈ s.holdViews) : v.slots = s.store.heldSlots v.hold := by
  obtain ⟨k, _, shown⟩ := List.mem_filterMap.mp h
  obtain ⟨g, _, rfl⟩ := Option.map_eq_some_iff.mp shown
  rfl

theorem State.holdViews_length (s : State) : s.holdViews.length = (liveHolds s.holds).length := by
  have same : s.holdViews.map (·.hold) = liveHolds s.holds := by
    rw [State.holdViews, List.map_filterMap, liveHolds]
    refine congrArg (fun f => (List.finRange 32).filterMap f) (funext fun k => ?_)
    rw [Option.map_map]
    exact Option.map_id'
  rw [← same, List.length_map]

/-- Settles O58: the reads one by one, each by what it finds. -/
theorem readsOfTheStoreChangeNothing : Obligations.ReadsOfTheStoreChangeNothing := by
  intro s rq n svc m offset length answers find review queue
  have isQueue : s.store.those Slot.isSealed = queue := s.store.those_sealed
  refine ⟨fun out => ⟨exec_findClip_bad rq s out m, exec_readChunkReview_bad rq s (.inl out)⟩,
    fun out => exec_readChunkReview_bad rq s (.inr out), ?_, ?_, ?_⟩
  · rintro i rfl
    have found (o : Option ClipEntry) (h : s.clips.find i m = o) := h ▸ exec_findClip rq s i m
    refine ⟨fun none => found _ (ClipIndex.find_eq_none none), fun e mem start rising => ?_, fun inside pos short => ⟨?_, ?_⟩⟩
    · have clip (a : ClipView) (h : clipAnswer s.store e = a) : answers find .ok (.clip a) :=
        h ▸ found _ (ClipIndex.find_eq_some mem start rising)
      refine ⟨fun gap => clip _ ?_, fun lost => clip _ ?_, fun k stored free => clip _ ?_, fun k y stored there => clip _ ?_⟩
      · rw [clipAnswer, gap]
      · rw [clipAnswer, lost]
      · rw [clipAnswer, stored]
        dsimp only
        rw [free]
      · rw [clipAnswer, stored]
        dsimp only
        rw [there]
    · intro y there filling same start
      have read := exec_readChunkReview rq s (n := n) i (m := m) (offset := offset) inside pos short
      rwa [there, reviewAnswer_held filling same start] at read
    · intro other
      have read := exec_readChunkReview rq s (n := n) i (m := m) (offset := offset) inside pos short
      rwa [reviewAnswer_gone other] at read
  · refine ⟨s.holdViews, s.holdViews_map, fun v mem => (s.holdViews_slots mem).trans (Store.heldSlots_eq ..), ?_⟩
    rw [State.holdViews_length]
    rfl
  · refine ⟨s.store.queueHead.map fun e => (e.1, e.2.sealNo.getD 0), s.store.queueTail.map fun e => (e.1, e.2.sealNo.getD 0), ?_⟩
    intro seals
    refine ⟨⟨?_, ?_⟩, ⟨?_, ?_⟩, ?_⟩
    · rw [Option.map_eq_none_iff, Store.queueHead, lowestSeal_eq_none, isQueue]
    · intro j k head
      obtain ⟨e, low, same⟩ := Option.map_eq_some_iff.mp head
      obtain ⟨rfl, rfl⟩ := Prod.mk.inj same
      rw [Store.queueHead, isQueue] at low
      exact ⟨⟨e.2, lowestSeal_mem low, rfl⟩, lowestSeal_le low⟩
    · rw [Option.map_eq_none_iff, Store.queueTail, highestSeal_eq_none, isQueue]
    · intro j k tail
      obtain ⟨e, high, same⟩ := Option.map_eq_some_iff.mp tail
      obtain ⟨rfl, rfl⟩ := Prod.mk.inj same
      rw [Store.queueTail, isQueue] at high
      obtain ⟨mem, most⟩ := highestSeal_spec high
      exact ⟨⟨e.2, mem, rfl⟩, most⟩
    · have length : s.store.backlogCount = queue.length := s.store.backlogCount_eq
      show exec (.readArchiveStatus rq) s = _
      rw [← length]
      rfl

end Sys2Proof.Machine
end

section
/-!
The checks of a record, its verdict and its fields (O32, O33).
-/

namespace Sys2Proof.Machine

/-! ### The checks (R105 to R110) -/

/-- R105: a tolerance about a target, as the two bounds that it gives. -/
theorem checkLoudness_some (p : Profile) (v : Int) :
    checkLoudness p (some v)
      = if -(p.tolerance : Int) ≤ v - p.target ∧ v - p.target ≤ p.tolerance then .pass else .fail :=
  if_congr (by omega) rfl rfl

theorem relativeApplies_eq_true_iff (p : Profile) (cls : SegClass) :
    relativeApplies p cls = true ↔ (cls = .advert ∨ cls = .promotion) ∧ p.relative ≠ none := by
  rw [relativeApplies, Bool.and_eq_true, Bool.or_eq_true, beq_iff_eq, beq_iff_eq, Option.isSome_iff_ne_none]

/-- R107: no other class is under a relative limit. -/
theorem relativeApplies_eq_false_of {p : Profile} {cls : SegClass}
    (h : cls ≠ .advert ∧ cls ≠ .promotion ∨ p.relative = none) : relativeApplies p cls = false := by
  refine eq_false_of_ne_true fun applies => ?_
  obtain ⟨classes, limit⟩ := (relativeApplies_eq_true_iff p cls).mp applies
  rcases h with ⟨advert, promotion⟩ | unlimited
  · exact classes.elim advert promotion
  · exact limit unlimited

theorem checkRelative_of_applies {p : Profile} {cls : SegClass} (h : relativeApplies p cls = true)
    (integrated : Option Int) (ref : Option Reference) :
    (integrated = none ∨ ref = none → checkRelative p cls integrated ref = .notMeasured) ∧
    ∀ l v r, p.relative = some l → integrated = some v → ref = some r →
      checkRelative p cls integrated ref = if v - r.code ≤ (l : Int) then .pass else .fail := by
  unfold checkRelative
  rw [if_pos h]
  refine ⟨?_, ?_⟩
  · rintro (rfl | rfl)
    · cases p.relative <;> rfl
    · cases p.relative
      · rfl
      · cases integrated <;> rfl
  · rintro l v r limit rfl rfl
    rw [limit]

theorem checkCoverage_of_captions {p : Profile} (h : p.captions = true) (audible covered : Nat) :
    checkCoverage p audible covered
      = if audible = 0 then .notMeasured else if p.minCoverage * audible ≤ covered * 1000 then .pass else .fail := by
  rw [checkCoverage, if_pos h]

theorem verdictOf_eq (k : Checks) :
    verdictOf k = if .fail ∈ k.list then .fail else if .pass ∈ k.list then .pass else .notMeasured := by
  simp only [verdictOf, List.contains_iff_mem]

/-- Settles O32, check by check. -/
theorem checksAndVerdictOfARecord : Obligations.ChecksAndVerdictOfARecord := by
  unfold Obligations.ChecksAndVerdictOfARecord
  refine ⟨fun p cls m c ref => ?_, fun k => ?_⟩
  · dsimp only [checksOf]
    refine ⟨fun h => ?_, fun v h => ?_, fun h => ?_, fun l h h' => ?_, fun l v h h' => ?_, fun h => ?_, fun l h h' => ?_,
      fun l v h h' => ?_, fun h => ?_, fun classes limit => ?_, fun h => ?_, fun h none => ?_, fun h some => ?_, fun h => ?_,
      fun n h h' => ?_⟩
    · rw [h]; rfl
    · rw [h, checkLoudness_some]
    · rw [h]; rfl
    · rw [h, h']; rfl
    · rw [h, h']; rfl
    · rw [h]; rfl
    · rw [h, h']; rfl
    · rw [h, h']; rfl
    · have spared : ¬ relativeApplies p cls = true := by simp [relativeApplies_eq_false_of h]
      exact ⟨if_neg spared, if_neg spared⟩
    · have applies := (relativeApplies_eq_true_iff p cls).mpr ⟨classes, limit⟩
      exact ⟨if_pos applies, checkRelative_of_applies applies _ _⟩
    · simp [checkCoverage, checkGap, h]
    · rw [checkCoverage_of_captions h, if_pos none]
    · rw [checkCoverage_of_captions h, if_neg some]
    · simp [checkGap, h]
    · simp [checkGap, h, h']
  · rw [verdictOf_eq]
    exact ⟨fun h => if_pos h, fun h h' => (if_neg h).trans (if_pos h'), fun h h' => (if_neg h).trans (if_neg h')⟩

/-! ### The fields of a record (R101 to R104) -/

theorem Segment.unjudged_iff {g : Segment} {cause : Cause} (h : g.cause = some cause) :
    g.unjudged = true ↔ cause = .skipped ∨ cause = .reset := by
  simp only [Segment.unjudged, h, Bool.or_eq_true, beq_iff_eq, Option.some.injEq]

/-- R103, R104: a record that is not judged has every check and the verdict NOT_MEASURED, and uses no reference. -/
theorem assembleRecord_of_unjudged {g : Segment} (h : g.unjudged = true) (seq : Nat) (svc : Svc) (p : Profile)
    (ref : Option Reference) :
    let r := assembleRecord seq svc g p ref
    (∀ k ∈ r.checks.list, k = .notMeasured) ∧ r.verdict = .notMeasured ∧ r.refUsed = none := by
  simp only [assembleRecord, if_pos h]
  decide

/-- R105 to R110: a record that is judged. -/
theorem assembleRecord_of_judged {g : Segment} (h : ¬ g.unjudged = true) {m : MeterSummary} {c : CaptionSummary}
    (meter : g.meterSummary = some m) (caption : g.captionSummary = some c) (seq : Nat) (svc : Svc) (p : Profile)
    (ref : Option Reference) :
    let r := assembleRecord seq svc g p ref
    r.checks = checksOf p g.cls m c ref ∧ r.verdict = verdictOf r.checks ∧ r.refUsed = referenceUsed p g.cls ref := by
  simp only [assembleRecord, if_neg h, meter, caption, Option.getD_some, and_self]

/-- Settles O33, from the summaries received and from `Segment.unjudged`. -/
theorem recordFieldsOfACompletion : Obligations.RecordFieldsOfACompletion := by
  unfold Obligations.RecordFieldsOfACompletion
  intro seq svc g p ref e cause ended caused
  refine ⟨?_, fun m meter => ?_, fun meter => ?_, fun c caption => ?_, fun caption => ?_, fun h => ?_, fun h h' m c meter caption => ?_⟩
  · simp [assembleRecord, ended, caused]
  · simp [assembleRecord, meter]
  · simp [assembleRecord, meter, MeterSummary.missing]
  · simp [assembleRecord, caption]
  · simp [assembleRecord, caption, CaptionSummary.missing]
  · exact assembleRecord_of_unjudged ((Segment.unjudged_iff caused).mpr h) ..
  · exact assembleRecord_of_judged (fun u => ((Segment.unjudged_iff caused).mp u).elim h h') meter caption ..

end Sys2Proof.Machine
end

section
/-!
The writing of records (O34): what waits is taken one matter at a time.
-/

namespace Sys2Proof.Machine

namespace Compliance

variable (x : Compliance)

/-! ### The storing of a record (R100, R112, R114) -/

/-- R114: the record whose place the next one takes. -/
theorem overwritten_eq :
    x.overwritten = (if x.log.length < 4096 then none else x.log.head?).map fun o => (o, decide (x.mark < o.seq)) := by
  unfold overwritten logPlaces
  split <;> rfl

/-- R99: the reference that a stored record leaves. -/
theorem refsAfter_eq (r : Record) :
    x.refsAfter r = match r.integrated with
      | none => x.refs
      | some v => if r.cls = .programme ∧ r.cause ≠ .reset then x.refs.set r.svc (some ⟨v, r.seq⟩) else x.refs := by
  unfold refsAfter
  cases r.integrated with
  | none => cases r.cls <;> rfl
  | some v =>
    cases r.cls
    case programme =>
      by_cases reset : r.cause = .reset
      · simp [reset]
      · simp [reset]
    all_goals simp

/-- A record stored in a free place of the log. -/
theorem finish_of_room {time : Option Mi} {r : Record} (h : (if x.log.length < 4096 then none else x.log.head?) = none) :
    x.finish time r
      = ({ x with refs := x.refsAfter r, log := x.log ++ [{ r with lostBefore := x.loss }], loss := 0, writing := none },
        recordNotices time r) := by
  simp only [finish, overwritten_eq, h, Option.map_none]

/-- A record stored in the place of record `o`. -/
theorem finish_over {time : Option Mi} {r o : Record} (h : (if x.log.length < 4096 then none else x.log.head?) = some o) :
    x.finish time r
      = ({ x with
            refs := x.refsAfter r
            log := x.log.tail ++ [{ r with lostBefore := if x.mark < o.seq then x.loss + 1 else x.loss }]
            loss := 0
            writing := none },
        (if x.mark < o.seq then [.counterIncrement .logRecordsLost, notice .logLoss (some o.svc) time (.sequence o.seq)] else [])
          ++ recordNotices time r) := by
  simp only [finish, overwritten_eq, h, Option.map_some, decide_eq_true_eq]

theorem counted_nil (ws : List Waiting) : counted ws [] = [] := by
  unfold counted
  split <;> rfl

theorem exhausted_of_idle (h : x.writing = none) : x.exhausted = true ↔ x.lastWritten = 2 ^ 48 - 1 := by
  simp only [exhausted, h, Bool.or_false, beq_iff_eq, maxSequence]

/-! ### The taking of a completion (R100, R113) -/

section

variable {x} {time : Option Mi} {guardMi : Nat} {svc : Svc} {g : Segment}

theorem beginWrite_of_exhausted (h : x.exhausted = true) : x.beginWrite time guardMi svc g = (x, []) := by
  rw [beginWrite, if_pos h]

variable (room : ¬ x.exhausted = true)
include room

/-- R111: a record that fails stays in progress until its hold is answered. -/
theorem beginWrite_of_fails (h : (assembleRecord x.nextSeq svc g x.profiles[g.profile] x.refs[svc]).verdict = .fail) :
    x.beginWrite time guardMi svc g
      = ({ x with
            nextSeq := min maxSequence (x.nextSeq + 1)
            writing := some (assembleRecord x.nextSeq svc g x.profiles[g.profile] x.refs[svc]) },
        [increment .segmentsFailed svc, holdRequest guardMi (assembleRecord x.nextSeq svc g x.profiles[g.profile] x.refs[svc])]) := by
  rw [beginWrite, if_neg room]
  exact if_pos h

theorem beginWrite_of_passes (h : (assembleRecord x.nextSeq svc g x.profiles[g.profile] x.refs[svc]).verdict ≠ .fail) :
    x.beginWrite time guardMi svc g
      = ({ x with nextSeq := min maxSequence (x.nextSeq + 1) } : Compliance).finish time
          (assembleRecord x.nextSeq svc g x.profiles[g.profile] x.refs[svc]) := by
  rw [beginWrite, if_neg room]
  exact if_neg h

end

/-! ### What waits does not matter to what is taken -/

theorem takeWaiting_setWaiting (q : List Waiting) (time : Option Mi) (map : Vector ServiceRecord 16) (w : Waiting) :
    ({ x with waiting := q } : Compliance).takeWaiting time map w
      = ({ (x.takeWaiting time map w).1 with waiting := q }, (x.takeWaiting time map w).2) := by
  cases w with
  | clearReferences => rfl
  | completion svc g =>
    have same : ({ x with waiting := q } : Compliance).exhausted = x.exhausted := rfl
    have overwrites (y : Compliance) : ({ y with waiting := q } : Compliance).overwritten = y.overwritten := rfl
    have refs (y : Compliance) (r : Record) : ({ y with waiting := q } : Compliance).refsAfter r = y.refsAfter r := rfl
    have finish (y : Compliance) (r : Record) :
        ({ y with waiting := q } : Compliance).finish time r
          = ({ (y.finish time r).1 with waiting := q }, (y.finish time r).2) := by
      simp only [Compliance.finish, overwrites, refs]
      cases y.overwritten <;> rfl
    simp only [takeWaiting, beginWrite, same]
    split
    · rfl
    · split
      · rfl
      · exact finish { x with nextSeq := min maxSequence (x.nextSeq + 1) } _

theorem writeAll_setWaiting (q : List Waiting) (time : Option Mi) (map : Vector ServiceRecord 16) (ws : List Waiting) :
    writeAll time map ws { x with waiting := q } = writeAll time map ws x := by
  induction ws generalizing x with
  | nil => rfl
  | cons w ws ih => simp only [writeAll, takeWaiting_setWaiting, ih]

end Compliance

/-! ### One matter at a time (R100, R118) -/

namespace State

variable {s : State}

theorem settleWrites_of_writing (h : s.compliance.writing.isSome = true) : s.settleWrites = s := by
  have all : Compliance.writeAll s.now s.map s.compliance.waiting s.compliance = (s.compliance, []) := by
    cases w : s.compliance.waiting with
    | nil => simp only [Compliance.writeAll, ← w]
    | cons w ws => simp only [Compliance.writeAll, if_pos h, ← w]
  simp only [settleWrites, all, send, List.append_nil]

theorem settleWrites_of_nothing (h : s.compliance.waiting = []) : s.settleWrites = s := by
  have all : Compliance.writeAll s.now s.map s.compliance.waiting s.compliance = (s.compliance, []) := by
    rw [h, Compliance.writeAll, ← h]
  simp only [settleWrites, all, send, List.append_nil]

/-- With no write in progress, the first matter that waits is taken, and then the others as far as they can be. -/
theorem settleWrites_cons {w : Waiting} {ws : List Waiting} (idle : s.compliance.writing = none)
    (waits : s.compliance.waiting = w :: ws) {y : Compliance} {ms : List Instr}
    (takes : ({ s.compliance with waiting := ws } : Compliance).takeWaiting s.now s.map w = (y, ms)) :
    s.settleWrites = ({ s with compliance := y }.send (Compliance.counted ws ms)).settleWrites := by
  rw [Compliance.takeWaiting_setWaiting, Prod.mk.injEq] at takes
  obtain ⟨rfl, rfl⟩ := takes
  have all : Compliance.writeAll s.now s.map s.compliance.waiting s.compliance
      = ((Compliance.writeAll s.now s.map ws (s.compliance.takeWaiting s.now s.map w).1).1,
        Compliance.counted ws (s.compliance.takeWaiting s.now s.map w).2
          ++ (Compliance.writeAll s.now s.map ws (s.compliance.takeWaiting s.now s.map w).1).2) := by
    rw [waits, Compliance.writeAll, if_neg (by simp [idle])]
  have later := Compliance.writeAll_setWaiting (s.compliance.takeWaiting s.now s.map w).1 ws s.now s.map ws
  unfold settleWrites
  rw [all, ← send_send]
  simp only [now_eq, send_station, send_map, send_compliance] at later ⊢
  rw [later]
  rfl

end State

/-- R118: a warm reset's clearing of the references waits among `ws`. -/
theorem any_isClear_iff (ws : List Waiting) : ws.any Waiting.isClear = true ↔ .clearReferences ∈ ws := by
  rw [List.any_eq_true]
  constructor
  · rintro ⟨w, mem, clear⟩
    cases w with
    | completion => cases clear
    | clearReferences => exact mem
  · exact fun mem => ⟨_, mem, rfl⟩

/-- Settles O34: `State.settleWrites_cons` takes one matter, and the cases of `Compliance.beginWrite` and `Compliance.finish` say
what that is. -/
theorem completionsAreWrittenInOrder : Obligations.CompletionsAreWrittenInOrder := by
  unfold Obligations.CompletionsAreWrittenInOrder
  intro s x oldest lost stored raised isIncrement sent
  have incremented (c : Instr) : (incrementOf c).isNone = !isIncrement c := by cases c <;> rfl
  have counted (ws : List Waiting) (ms : List Instr) : Compliance.counted ws ms = sent ws ms := by
    simp only [Compliance.counted, any_isClear_iff, incremented] <;> rfl
  have finished (y : Compliance) (r : Record) : y.finish s.now r = (stored y r, raised y r) := by
    cases oldestIs : oldest y with
    | none =>
      have kept : lost y = false := by simp only [lost, oldestIs]
      refine (y.finish_of_room oldestIs).trans (Prod.ext ?_ ?_)
      · simp only [stored, oldestIs, kept, Compliance.refsAfter_eq] <;> rfl
      · simp only [raised, oldestIs] <;> rfl
    | some o =>
      have loses : lost y = decide (y.mark < o.seq) := by simp only [lost, oldestIs]
      refine (y.finish_over oldestIs).trans (Prod.ext ?_ ?_)
      · simp only [stored, oldestIs, loses, Compliance.refsAfter_eq, decide_eq_true_eq] <;> rfl
      · simp only [raised, oldestIs, List.append_assoc] <;> rfl
  refine ⟨fun ws => rfl, fun hold => ⟨fun idle => ?_, fun r writing => ?_⟩, rfl, fun h => ?_, fun rest idle waits => ?_,
    fun svc g rest idle waits => ⟨fun last => ?_, fun room fails => ?_, fun room passes => ?_⟩⟩
  · simp only [exec, execHoldAnswer, State.arrive_compliance, show s.compliance.writing = none from idle]
  · simp only [exec, execHoldAnswer, State.arrive_compliance, show s.compliance.writing = some r from writing]
    cases hold with
    | none => rw [← counted, State.now_eq, State.arrive_station, ← State.now_eq, finished]
    | some n => rw [← counted, State.now_eq, State.arrive_station, ← State.now_eq, finished]
  · exact h.elim State.settleWrites_of_writing State.settleWrites_of_nothing
  · refine (State.settleWrites_cons idle waits rfl).trans ?_
    rw [Compliance.counted_nil, State.send_nil]
  · have full := ({ x with waiting := rest } : Compliance).exhausted_of_idle idle |>.mpr last
    refine (State.settleWrites_cons idle waits (Compliance.beginWrite_of_exhausted full)).trans ?_
    rw [Compliance.counted_nil, State.send_nil]
  · have free := mt (({ x with waiting := rest } : Compliance).exhausted_of_idle idle).mp room
    refine (State.settleWrites_cons idle waits (Compliance.beginWrite_of_fails free fails)).trans ?_
    rw [counted]
    exact State.settleWrites_of_writing rfl
  · have free := mt (({ x with waiting := rest } : Compliance).exhausted_of_idle idle).mp room
    refine (State.settleWrites_cons idle waits ((Compliance.beginWrite_of_passes free passes).trans (finished _ _))).trans ?_
    rw [counted]
    rfl

end Sys2Proof.Machine
end

section
/-!
The recorder at a warm reset: what the cut of a run leaves of its service and of the chunk table.
-/

namespace Sys2Proof.Machine

namespace Work

variable (w : Work) (a : Around)

/-! ### The cut of a run (R138) -/

/-- What the end of a run leaves of a service's recorder: of the run only what R117 goes on showing. -/
def afterRun (x : RecorderSvc) : RecorderSvc :=
  { x with run := .idle, span := none, state := none, onAir := [], held := [] }

theorem idle_x : w.idle.x = afterRun w.x := rfl

theorem afterRun_setRecording (r : Recording) (m : Mi) : afterRun (w.setRecording a r m).x = afterRun w.x := by
  rw [setRecording_eq]
  rfl

theorem afterRun_endChunk (n : Nat) (s : Slot) (e : Mi) (cut : Bool) : afterRun (w.endChunk a n s e cut).x = afterRun w.x := by
  unfold endChunk
  split
  · exact afterRun_setRecording ..
  · rfl

theorem afterRun_cutSpan (p : Span) (e : Mi) : afterRun (w.cutSpan a p e).x = afterRun w.x := by
  unfold cutSpan
  dsimp only
  split
  · split <;> rfl
  · split
    · rfl
    · split
      · exact afterRun_endChunk ..
      · rfl

theorem cut_x (e : Mi) : (w.cut a e).x = afterRun w.x := by
  unfold cut
  split
  · rfl
  · exact afterRun_cutSpan ..

/-- R142: every service's recorder stands IDLE after a warm reset. -/
theorem warmReset_x : (w.warmReset a).x = { afterRun w.x with runStart := none, enable := none } := by
  unfold warmReset
  dsimp only
  cases w.x.run with
  | active => rw [cut_x]
  | waiting => rfl
  | idle => rfl

theorem warmReset_of_active (h : w.x.run = .active) :
    (w.warmReset a).store = (w.cut a (a.time.getD 0)).store ∧ (w.warmReset a).out = (w.cut a (a.time.getD 0)).out := by
  unfold warmReset
  rw [h]
  exact ⟨rfl, rfl⟩

theorem warmReset_of_not_active (h : w.x.run ≠ .active) : (w.warmReset a).store = w.store ∧ (w.warmReset a).out = w.out := by
  unfold warmReset
  cases run : w.x.run with
  | active => exact absurd run h
  | waiting => exact ⟨rfl, rfl⟩
  | idle => exact ⟨rfl, rfl⟩

/-! ### The chunk table after a cut -/

theorem setRecording_store (r : Recording) (m : Mi) : (w.setRecording a r m).store = w.store := by
  rw [setRecording_eq]

theorem endChunk_sealCount (n : Nat) (s : Slot) (e : Mi) (cut : Bool) :
    w.store.sealCount ≤ (w.endChunk a n s e cut).store.sealCount ∧
      (w.endChunk a n s e cut).store.sealCount ≤ w.store.sealCount + 1 := by
  unfold endChunk
  split
  · rw [endAsGap, setRecording_store]
    exact ⟨Nat.le_refl _, Nat.le_succ _⟩
  · exact ⟨Nat.le_succ _, Nat.le_refl _⟩

/-- R138: a cut seals at most one chunk. -/
theorem cut_sealCount (e : Mi) :
    w.store.sealCount ≤ (w.cut a e).store.sealCount ∧ (w.cut a e).store.sealCount ≤ w.store.sealCount + 1 := by
  unfold cut
  split
  · exact ⟨Nat.le_refl _, Nat.le_succ _⟩
  · unfold idle cutSpan
    dsimp only
    split
    · split <;> exact ⟨Nat.le_refl _, Nat.le_succ _⟩
    · split
      · exact ⟨Nat.le_refl _, Nat.le_succ _⟩
      · split
        · exact endChunk_sealCount ..
        · exact ⟨Nat.le_refl _, Nat.le_succ _⟩

theorem slotAt_endChunk_other {m n : Nat} (h : m ≠ n) (s : Slot) (e : Mi) (cut : Bool) :
    slotAt m (w.endChunk a n s e cut).store.slots = slotAt m w.store.slots := by
  unfold endChunk
  split
  · rw [endAsGap, setRecording_store]
    exact slotAt_dropSlot_other h _
  · exact slotAt_putSlot_other h _ _

/-- R138: a cut reaches no slot but that of the span that it cuts. -/
theorem slotAt_cut {m : Nat} (h : ∀ p, w.x.span = some p → p.slot ≠ some m) (e : Mi) :
    slotAt m (w.cut a e).store.slots = slotAt m w.store.slots := by
  unfold cut
  split
  · rfl
  · next p span =>
    unfold idle cutSpan
    dsimp only
    split
    · split <;> rfl
    · next n slot =>
      have apart : m ≠ n := fun same => h p span (same ▸ slot)
      split
      · rfl
      · split
        · exact slotAt_endChunk_other w a apart ..
        · exact slotAt_dropSlot_other apart _

end Work

namespace State

/-! ### The cuts, in service order (R142) -/

/-- The recorder's work of a warm reset for one service. -/
def warmWorked (u : State) (i : Svc) : State := u.worked i ((u.work i).warmReset (u.around i))

/-- The cut of the runs that are ACTIVE in `s`, one service at a time. -/
def cutActive (s u : State) (i : Svc) : State :=
  if s.recorder[i].run = .active then u.worked i ((u.work i).cut (u.around i) (s.station.time.getD 0)) else u

theorem warmRecorder_eq (s : State) :
    s.warmRecorder =
      { allSvcs.foldl warmWorked s with
        store := (allSvcs.foldl warmWorked s).store.returnAll
        archive := { (allSvcs.foldl warmWorked s).archive with takes := [] } }.testBacklog := rfl

theorem warmWorked_recorder (u : State) (i : Svc) :
    (u.warmWorked i).recorder =
      u.recorder.set i { Work.afterRun u.recorder[i] with runStart := none, enable := none } :=
  congrArg (u.recorder.set i.val · i.isLt) (Work.warmReset_x (u.work i) (u.around i))

theorem foldl_warmWorked_recorder (s : State) (i : Svc) :
    (allSvcs.foldl warmWorked s).recorder[i] = { Work.afterRun s.recorder[i] with runStart := none, enable := none } := by
  refine (foldl_each State.recorder warmWorked_recorder (fun u i j apart => ?_) (List.nodup_finRange 16) s i).trans
    (if_pos (List.mem_finRange i))
  rw [warmWorked_recorder]
  have ne : (i : Nat) ≠ j := fun h => apart (Fin.ext h.symm)
  simp [ne]

/-! ### The chunk table after the cuts (R137, R138, R142) -/

theorem warmWorked_sealCount (u : State) (i : Svc) :
    u.store.sealCount ≤ (u.warmWorked i).store.sealCount ∧ (u.warmWorked i).store.sealCount ≤ u.store.sealCount + 1 := by
  show u.store.sealCount ≤ ((u.work i).warmReset (u.around i)).store.sealCount ∧
    ((u.work i).warmReset (u.around i)).store.sealCount ≤ u.store.sealCount + 1
  by_cases active : (u.work i).x.run = .active
  · rw [(Work.warmReset_of_active _ _ active).1]
    exact (u.work i).cut_sealCount ..
  · rw [(Work.warmReset_of_not_active _ _ active).1]
    exact ⟨Nat.le_refl _, Nat.le_succ _⟩

theorem foldl_warmWorked_sealCount (l : List Svc) (u : State) :
    u.store.sealCount ≤ (l.foldl warmWorked u).store.sealCount ∧
      (l.foldl warmWorked u).store.sealCount ≤ u.store.sealCount + l.length := by
  induction l generalizing u with
  | nil => exact ⟨Nat.le_refl _, Nat.le_refl _⟩
  | cons i l ih =>
    obtain ⟨low, high⟩ := ih (u.warmWorked i)
    obtain ⟨low₁, high₁⟩ := u.warmWorked_sealCount i
    rw [List.foldl_cons, List.length_cons]
    exact ⟨low₁.trans low, by omega⟩

/-- A slot that is not FILLING is that of no span, so no cut reaches it. -/
theorem slotAt_warmWorked {u : State} (good : u.GoodStore) {n : Nat} {y : Slot} (there : slotAt n u.store.slots = some y)
    (still : y.state ≠ .filling) (i : Svc) : slotAt n (u.warmWorked i).store.slots = some y := by
  show slotAt n ((u.work i).warmReset (u.around i)).store.slots = some y
  by_cases active : (u.work i).x.run = .active
  · rw [(Work.warmReset_of_active _ _ active).1, Work.slotAt_cut]
    · exact there
    · intro p span slot
      obtain ⟨x, found, filling, _⟩ := good.2.2.1.2.1 i p n span slot
      obtain rfl := Option.some.inj (there.symm.trans found)
      exact still filling
  · rw [(Work.warmReset_of_not_active _ _ active).1]
    exact there

theorem slotAt_foldl_warmWorked {u : State} (good : u.GoodStore) {n : Nat} {y : Slot} (there : slotAt n u.store.slots = some y)
    (still : y.state ≠ .filling) (l : List Svc) : slotAt n (l.foldl warmWorked u).store.slots = some y :=
  (foldl_induction (fun u => u.GoodStore ∧ slotAt n u.store.slots = some y)
    (fun _ i h => ⟨h.1.worked (h.1.work i).warmReset, slotAt_warmWorked h.1 h.2 still i⟩) l ⟨good, there⟩).2

theorem slotAt_returnAll (x : Store) (n : Nat) :
    slotAt n x.returnAll.slots
      = (slotAt n x.slots).map fun y => if y.state = .inTransfer then { y with state := .sealed } else y := by
  rw [← slotAt_map]
  refine congrArg (slotAt n) (List.map_congr_left fun e _ => ?_)
  simp only [Slot.isInTransfer, beq_iff_eq]
  split <;> rfl

theorem warmRecorder_sealCount (s : State) :
    s.store.sealCount ≤ s.warmRecorder.store.sealCount ∧ s.warmRecorder.store.sealCount ≤ s.store.sealCount + 16 := by
  have same (c : State) (a : Archive) :
      { c with store := c.store.returnAll, archive := a : State }.testBacklog.store.sealCount = c.store.sealCount := by
    rw [testBacklog_store, Store.testBacklog_eq]
    rfl
  rw [warmRecorder_eq, same]
  exact s.foldl_warmWorked_sealCount allSvcs

theorem slotAt_warmRecorder {s : State} (good : s.GoodStore) {n : Nat} {y : Slot} (there : slotAt n s.store.slots = some y)
    (still : y.state ≠ .filling) :
    slotAt n s.warmRecorder.store.slots
      = some (if y.state = .inTransfer then { y with state := .sealed } else y) := by
  rw [warmRecorder_eq, testBacklog_slots]
  exact (slotAt_returnAll _ n).trans (congrArg _ (slotAt_foldl_warmWorked good there still allSvcs))

theorem warmRecorder_recorder (s : State) (i : Svc) :
    s.warmRecorder.recorder[i] = { Work.afterRun s.recorder[i] with runStart := none, enable := none } := by
  rw [warmRecorder_eq, testBacklog_recorder]
  exact s.foldl_warmWorked_recorder i

theorem warmRecorder_archive (s : State) : s.warmRecorder.archive = ⟨[], s.archive.tokenCounter⟩ := by
  rw [warmRecorder_eq, testBacklog_archive]
  exact congrArg (fun x : Archive => { x with takes := [] })
    (foldl_induction (fun u => u.archive = s.archive) (fun _ _ h => h) allSvcs rfl)

/-- R142, R168: no slot is FILLING or IN_TRANSFER with every service IDLE and no take in flight. -/
theorem GoodStore.settled {s : State} (good : s.GoodStore) (idle : ∀ i : Svc, s.recorder[i].span = none)
    (none : s.archive.takes = []) : ∀ e ∈ s.store.slots, e.2.state ≠ .filling ∧ e.2.state ≠ .inTransfer := by
  obtain ⟨⟨rising, _⟩, _, ⟨_, _, spans⟩, _, _, _, takes⟩ := good
  rintro ⟨n, x⟩ mem
  have found := (slotAt_eq_some_iff rising).mpr mem
  refine ⟨fun filling => ?_, fun moving => ?_⟩
  · obtain ⟨p, span, _⟩ := spans n x found filling
    cases (idle x.svc).symm.trans span
  · obtain ⟨t, mem, _⟩ := takes n x found moving
    rw [none] at mem
    exact List.not_mem_nil mem

end State

end Sys2Proof.Machine
end

section
/-!
Warm reset (O60): the blocks clear one after the other, and what the compliance unit, the recorder and the counter bank do of it does
not depend on what the other blocks clear.
-/

namespace Sys2Proof.Machine

namespace State

/-! ### What the writing, the cuts and the counting rest on -/

/-- `w` agrees with `u` in what the compliance unit, the recorder's store and the counter bank read and write. -/
structure Alike (u w : State) : Prop where
  station    : w.station = u.station
  map        : w.map = u.map
  compliance : w.compliance = u.compliance
  store      : w.store = u.store
  holds      : w.holds = u.holds
  bank       : w.bank = u.bank
  inFlight   : w.inFlight = u.inFlight

namespace Alike

variable {u w : State}

theorem trans {v : State} (h : u.Alike v) (h' : v.Alike w) : u.Alike w :=
  ⟨h'.station.trans h.station, h'.map.trans h.map, h'.compliance.trans h.compliance, h'.store.trans h.store,
    h'.holds.trans h.holds, h'.bank.trans h.bank, h'.inFlight.trans h.inFlight⟩

theorem complete (h : u.Alike w) (ws : List Waiting) : (u.complete ws).Alike (w.complete ws) where
  station := h.station
  map := h.map
  compliance := by simp only [State.complete, settleWrites, send_compliance, now_eq, h.station, h.map, h.compliance]
  store := h.store
  holds := h.holds
  bank := h.bank
  inFlight := by simp only [State.complete, settleWrites, send, now_eq, h.station, h.map, h.compliance, h.inFlight]

theorem testBacklog (h : u.Alike w) : u.testBacklog.Alike w.testBacklog where
  station := h.station
  map := h.map
  compliance := h.compliance
  store := by simp only [testBacklog_store, now_eq, h.station, h.store]
  holds := h.holds
  bank := h.bank
  inFlight := by simp only [testBacklog_inFlight, now_eq, h.station, h.store, h.inFlight]

theorem bankAdd (h : u.Alike w) (k : Counter) : (u.bankAdd k).Alike (w.bankAdd k) where
  station := h.station
  map := h.map
  compliance := h.compliance
  store := h.store
  holds := h.holds
  bank := congrArg (fun b : Bank => b.setCell k (b.cell k).bump) h.bank
  inFlight := by simp only [State.bankAdd, send, Bank.add, now_eq, h.station, h.bank, h.inFlight]

theorem foldl_bankAdd (h : u.Alike w) (l : List Counter) :
    (l.foldl (fun x k => x.bankAdd k) u).Alike (l.foldl (fun x k => x.bankAdd k) w) := by
  induction l generalizing u w with
  | nil => exact h
  | cons k l ih => exact ih (h.bankAdd k)

theorem worked (h : u.Alike w) (i : Svc) {x y : Work} (store : y.store = x.store) (out : y.out = x.out) :
    (u.worked i x).Alike (w.worked i y) where
  station := h.station
  map := h.map
  compliance := h.compliance
  store := store
  holds := h.holds
  bank := h.bank
  inFlight := by rw [worked_inFlight, worked_inFlight, h.inFlight, out]

/-- R142: a service that is not ACTIVE leaves the store as it is. -/
theorem cutActive {s : State} (h : u.Alike w) (station : u.station = s.station) {i : Svc}
    (same : w.recorder[i] = u.recorder[i]) (recorder : u.recorder[i] = s.recorder[i]) :
    (s.cutActive u i).Alike (w.warmWorked i) := by
  have work : w.work i = u.work i := by rw [State.work, same, h.store]; rfl
  have around : w.around i = u.around i := by rw [State.around, h.holds, now_eq, h.station]; rfl
  have time : (u.around i).time = s.station.time := congrArg Station.time station
  unfold State.cutActive warmWorked
  rw [work, around]
  split
  · next active =>
    obtain ⟨store, out⟩ := (u.work i).warmReset_of_active (u.around i) ((congrArg RecorderSvc.run recorder).trans active)
    exact h.worked i (store.trans (by rw [time])) (out.trans (by rw [time]))
  · next idle =>
    obtain ⟨store, out⟩ :=
      (u.work i).warmReset_of_not_active (u.around i) fun active => idle ((congrArg RecorderSvc.run recorder).symm.trans active)
    have whole := h.worked i store out
    rwa [worked_work] at whole

end Alike

theorem cutActive_other {s u : State} {i j : Svc} (h : j ≠ i) : (s.cutActive u i).recorder[j] = u.recorder[j] := by
  unfold cutActive
  split
  · exact Vector.getElem_set_ne i.isLt j.isLt fun e => h (Fin.ext e.symm)
  · rfl

theorem cutActive_station (s u : State) (i : Svc) : (s.cutActive u i).station = u.station := by
  unfold cutActive
  split <;> rfl

theorem warmWorked_other {u : State} {i j : Svc} (h : j ≠ i) : (u.warmWorked i).recorder[j] = u.recorder[j] := by
  have : (i : Nat) ≠ j := fun e => h (Fin.ext e.symm)
  rw [warmWorked_recorder]
  simp [this]

/-- R142: the cuts of the ACTIVE runs, among services that are none, leave the store of the warm reset. -/
theorem Alike.foldl_cutActive {s : State} {l : List Svc} (nodup : l.Nodup) {u w : State} (h : u.Alike w)
    (station : u.station = s.station) (same : ∀ i ∈ l, w.recorder[i] = u.recorder[i])
    (recorder : ∀ i ∈ l, u.recorder[i] = s.recorder[i]) : (l.foldl s.cutActive u).Alike (l.foldl warmWorked w) := by
  induction l generalizing u w with
  | nil => exact h
  | cons i l ih =>
    obtain ⟨fresh, nodup⟩ := List.nodup_cons.mp nodup
    have apart {j : Svc} (mem : j ∈ l) : j ≠ i := fun e => fresh (e ▸ mem)
    refine ih nodup (h.cutActive station (same i (.head _)) (recorder i (.head _))) ((cutActive_station ..).trans station)
      (fun j mem => ?_) fun j mem => ?_
    · rw [cutActive_other (apart mem), warmWorked_other (apart mem)]
      exact same j (.tail _ mem)
    · rw [cutActive_other (apart mem)]
      exact recorder j (.tail _ mem)

end State

/-! ### What is handed over to the compliance unit (R37, R118) -/

/-- R103, R104: no record of the matter can fail. -/
def Waiting.Unjudged : Waiting → Prop
  | .completion _ g => g.unjudged = true
  | .clearReferences => True

theorem Compliance.finish_writing (x : Compliance) (time : Option Mi) (r : Record) : (x.finish time r).1.writing = none := by
  unfold finish
  split <;> rfl

theorem Compliance.takeWaiting_of_unjudged {x : Compliance} (idle : x.writing = none) (time : Option Mi)
    (map : Vector ServiceRecord 16) {w : Waiting} (h : w.Unjudged) : (x.takeWaiting time map w).1.writing = none := by
  cases w with
  | clearReferences => exact idle
  | completion svc g =>
    have passes := (assembleRecord_of_unjudged h x.nextSeq svc x.profiles[g.profile] x.refs[svc]).2.1
    show (x.beginWrite time map[svc].holdGuard svc g).1.writing = none
    by_cases full : x.exhausted = true
    · rw [beginWrite_of_exhausted full]
      exact idle
    · rw [beginWrite_of_passes full (by rw [passes]; decide)]
      exact finish_writing ..

/-- R118: what a warm reset hands over is written at once where no write is in progress. -/
theorem Compliance.writeAll_of_unjudged (time : Option Mi) (map : Vector ServiceRecord 16) {ws : List Waiting}
    (h : ∀ w ∈ ws, w.Unjudged) {x : Compliance} (idle : x.writing = none) :
    (writeAll time map ws x).1.writing = none ∧ (writeAll time map ws x).1.waiting = [] := by
  have writing : (writeAll time map ws x).1.writing = none := by
    induction ws generalizing x with
    | nil => exact idle
    | cons w ws ih =>
      rw [writeAll, if_neg (by simp [idle])]
      exact ih (fun v mem => h v (.tail _ mem)) (takeWaiting_of_unjudged idle time map (h w (.head _)))
  refine ⟨writing, (writeAll_waiting time map ws x).resolve_right fun busy => ?_⟩
  rw [writing] at busy
  cases busy

theorem Segment.reset_eq (g : Segment) :
    g.reset = if g.cause = some .skipped then g else { g with cause := some .reset } := by
  unfold Segment.reset
  by_cases skipped : g.cause = some .skipped
  · rw [if_pos skipped, if_neg (by simp [Segment.needsSummaries, skipped])]
  · rw [if_neg skipped, if_pos (by simp [Segment.needsSummaries, skipped])]

theorem Segment.unjudged_reset (g : Segment) : g.reset.unjudged = true := by
  rw [Segment.reset_eq]
  split
  · next skipped => exact (Segment.unjudged_iff skipped).mpr (.inl rfl)
  · exact (Segment.unjudged_iff rfl).mpr (.inr rfl)

theorem ServiceSched.unjudged_handedOver (x : ServiceSched) (time : Option Mi) {g : Segment} (h : g ∈ x.handedOver time) :
    g.unjudged = true := by
  rcases List.mem_append.mp h with closing | isOpen
  · obtain ⟨g, _, rfl⟩ := List.mem_map.mp closing
    exact g.unjudged_reset
  · cases seg : x.openSeg with
    | none =>
      rw [seg] at isOpen
      cases isOpen
    | some g =>
      rw [seg] at isOpen
      obtain rfl := List.mem_singleton.mp isOpen
      exact (Segment.unjudged_iff rfl).mpr (.inr rfl)

/-- R37: all that a warm reset hands over, in service order. -/
def State.handedOver (s : State) : List Waiting :=
  allSvcs.flatMap fun i => (s.sched[i].handedOver s.now).map (Waiting.completion i)

theorem State.unjudged_handedOver (s : State) : ∀ w ∈ s.handedOver, w.Unjudged := by
  intro w mem
  obtain ⟨i, _, mem⟩ := List.mem_flatMap.mp mem
  obtain ⟨g, handed, rfl⟩ := List.mem_map.mp mem
  exact ServiceSched.unjudged_handedOver _ _ handed

/-- R118: what a warm reset hands over, and behind it the clearing of the references. -/
def State.handOver (s : State) (ws : List Waiting) : State := (s.complete ws).complete [.clearReferences]

section
variable {s : State} {ws : List Waiting}

theorem State.handOver_keeps :
    (s.handOver ws).compliance.profiles = s.compliance.profiles ∧ (s.handOver ws).compliance.mark = s.compliance.mark := by
  have once (u : State) (ws : List Waiting) :
      (u.complete ws).compliance.profiles = u.compliance.profiles ∧ (u.complete ws).compliance.mark = u.compliance.mark :=
    Compliance.writeAll_keeps ..
  obtain ⟨profiles, mark⟩ := once s ws
  obtain ⟨profiles', mark'⟩ := once (s.complete ws) [.clearReferences]
  exact ⟨profiles'.trans profiles, mark'.trans mark⟩

/-- R118: behind a write in progress all of it waits. -/
theorem State.handOver_of_writing (h : s.compliance.writing.isSome = true) :
    (s.handOver ws).compliance = { s.compliance with waiting := s.compliance.waiting ++ ws ++ [.clearReferences] } := by
  have once {u : State} (busy : u.compliance.writing.isSome = true) (ws : List Waiting) :
      u.complete ws = { u with compliance := { u.compliance with waiting := u.compliance.waiting ++ ws } } :=
    State.settleWrites_of_writing busy
  unfold State.handOver
  rw [once h]
  exact congrArg State.compliance (once (by exact h) _)

/-- R118: with no write in progress all of it is taken. -/
theorem State.handOver_of_idle (idle : s.compliance.writing = none) (none : s.compliance.waiting = []) (h : ∀ w ∈ ws, w.Unjudged) :
    (s.handOver ws).compliance.refs = Vector.replicate 16 Option.none ∧ (s.handOver ws).compliance.writing = Option.none ∧
      (s.handOver ws).compliance.waiting = [] := by
  obtain ⟨writing, waiting⟩ : (s.complete ws).compliance.writing = Option.none ∧ (s.complete ws).compliance.waiting = [] := by
    refine Compliance.writeAll_of_unjudged s.now s.map (ws := s.compliance.waiting ++ ws) (fun w mem => h w ?_) idle
    rwa [none] at mem
  have takes := State.settleWrites_cons (w := .clearReferences) (ws := [])
    (s := { s.complete ws with
      compliance := { (s.complete ws).compliance with waiting := (s.complete ws).compliance.waiting ++ [.clearReferences] } })
    writing (congrArg (· ++ [Waiting.clearReferences]) waiting) rfl
  rw [Compliance.counted_nil, State.send_nil] at takes
  have cleared : (s.handOver ws).compliance = _ := congrArg State.compliance (takes.trans (State.settleWrites_of_nothing rfl))
  rw [cleared]
  exact ⟨rfl, writing, rfl⟩

end

end Sys2Proof.Machine
end

section
/-!
Warm reset (O60), block by block: the statement assembled from what each block does.
-/

namespace Sys2Proof.Machine

namespace State

variable (s : State) (rq : Req) (straps : Straps)

/-! ### The parts of a warm reset (R179) -/

/-- The requests in service have been passed to their blocks. -/
def warmPassed : State := { s with inFlight := s.inFlight.filter fun c => !isWarmResetOf rq c }.passServed

/-- The state before the recorder's part of a warm reset. -/
def warmRested : State := (s.warmPassed rq).warmRouter.dropRunStarted.warmSchedule.warmMeasures

theorem warmed_eq : s.warmed rq straps = (s.warmRested rq).warmRecorder.warmBank.warmPorts straps := rfl

theorem warmPassed_frame (k : Part) : Frame k s (s.warmPassed rq) := (Frame.of_inFlight k rfl).trans (.passServed ..)

/-- What every block before the recorder's part keeps is kept. -/
theorem warmRested_keeps {α : Type} (f : State → α) (flight : ∀ u ms, f { u with inFlight := ms } = f u)
    (served : ∀ u : State, f u.passServed = f u) (router : ∀ u : State, f u.warmRouter = f u)
    (schedule : ∀ u : State, f u.warmSchedule = f u) (measures : ∀ u : State, f u.warmMeasures = f u) :
    f (s.warmRested rq) = f s := by
  have dropped (u : State) : f u.dropRunStarted = f u := flight u _
  unfold warmRested warmPassed
  rw [measures, schedule, dropped, router, served, flight]

theorem warmRested_station : (s.warmRested rq).station = s.station :=
  s.warmRested_keeps rq State.station (fun _ _ => rfl) (fun u => (Frame.passServed .ports u).station (by decide)) (fun _ => rfl)
    (fun u => (Frame.warmSchedule u).station (by decide)) (fun _ => rfl)

theorem warmRested_store : (s.warmRested rq).store = s.store :=
  s.warmRested_keeps rq State.store (fun _ _ => rfl) (fun u => (Frame.passServed .ports u).store (by decide)) (fun _ => rfl)
    (fun u => (Frame.warmSchedule u).store (by decide)) (fun _ => rfl)

theorem warmRested_recorder : (s.warmRested rq).recorder = s.recorder :=
  s.warmRested_keeps rq State.recorder (fun _ _ => rfl) (fun u => (Frame.passServed .ports u).recorder (by decide)) (fun _ => rfl)
    (fun u => (Frame.warmSchedule u).recorder (by decide)) (fun _ => rfl)

theorem warmRested_archive : (s.warmRested rq).archive = s.archive :=
  s.warmRested_keeps rq State.archive (fun _ _ => rfl) (fun u => (Frame.passServed .ports u).archive (by decide)) (fun _ => rfl)
    (fun u => (Frame.warmSchedule u).archive (by decide)) (fun _ => rfl)

theorem warmRested_bank : (s.warmRested rq).bank = s.bank :=
  s.warmRested_keeps rq State.bank (fun _ _ => rfl) (fun u => (Frame.passServed .ports u).bank (by decide)) (fun _ => rfl)
    (fun u => (Frame.warmSchedule u).bank (by decide)) (fun _ => rfl)

/-- R37, R118: the schedule unit at a warm reset, and what it hands over. -/
theorem warmSchedule_eq :
    s.warmSchedule =
      { s with
        sched := mapVec (fun x : ServiceSched => x.warmReset s.now) s.sched
        views := Vector.replicate 16 .present
        openSpans := mapVec (List.map (OpenSpan.endAt s.edges)) s.openSpans }.handOver s.handedOver := rfl

theorem handOver_eq (ws : List Waiting) :
    ∃ x ms, s.handOver ws = { s with compliance := x, inFlight := ms } := ⟨_, _, rfl⟩

theorem warmSchedule_ports : s.warmSchedule.ports = s.ports := by
  obtain ⟨x, ms, h⟩ := handOver_eq _ _
  rw [warmSchedule_eq, h]

theorem warmSchedule_views : s.warmSchedule.views = Vector.replicate 16 .present := by
  obtain ⟨x, ms, h⟩ := handOver_eq _ _
  rw [warmSchedule_eq, h]

theorem warmSchedule_openSpans : s.warmSchedule.openSpans = mapVec (List.map (OpenSpan.endAt s.edges)) s.openSpans := by
  obtain ⟨x, ms, h⟩ := handOver_eq _ _
  rw [warmSchedule_eq, h]

theorem warmRested_ports : (s.warmRested rq).ports = (s.warmPassed rq).ports := by
  have measured (u : State) : u.warmMeasures.ports = u.ports := by rw [warmMeasures_eq]
  have routed (u : State) : u.warmRouter.dropRunStarted.ports = u.ports := by simp only [warmRouter, dropRunStarted]
  rw [warmRested, measured, warmSchedule_ports, routed]

theorem warmRested_views : (s.warmRested rq).views = Vector.replicate 16 .present := by
  have measured (u : State) : u.warmMeasures.views = u.views := by rw [warmMeasures_eq]
  rw [warmRested, measured, warmSchedule_views]

theorem warmRested_openSpans : (s.warmRested rq).openSpans = mapVec (List.map (OpenSpan.endAt s.edges)) s.openSpans := by
  have measured (u : State) : u.warmMeasures.openSpans = u.openSpans := by rw [warmMeasures_eq]
  have routed (u : State) : u.warmRouter.dropRunStarted.openSpans = u.openSpans := by simp only [warmRouter, dropRunStarted]
  have routed' (u : State) : u.warmRouter.dropRunStarted.edges = u.edges := by simp only [warmRouter, dropRunStarted]
  rw [warmRested, measured, warmSchedule_openSpans, routed, routed', (s.warmPassed_frame rq .ports).edges (by decide),
    (s.warmPassed_frame rq .ports).openSpans (by decide)]

/-- What is written at a warm reset, before the recorder's part. -/
def warmWritten : State :=
  { s.warmPassed rq with inFlight := (s.warmPassed rq).inFlight.filter fun c => !isRunStarted c }.handOver s.handedOver

theorem Alike.handOver {u w : State} (h : u.Alike w) (ws : List Waiting) : (u.handOver ws).Alike (w.handOver ws) :=
  (h.complete ws).complete _

theorem Alike.warmMeasures {u w : State} (h : u.Alike w) : u.Alike w.warmMeasures :=
  ⟨by simp only [warmMeasures_eq, h.station], by simp only [warmMeasures_eq, h.map], by simp only [warmMeasures_eq, h.compliance],
    by simp only [warmMeasures_eq, h.store], by simp only [warmMeasures_eq, h.holds], by simp only [warmMeasures_eq, h.bank],
    by simp only [warmMeasures_eq, h.inFlight]⟩

theorem alike_warmSchedule : (s.handOver s.handedOver).Alike s.warmSchedule := by
  rw [warmSchedule_eq]
  refine Alike.handOver (u := s) ?_ _
  constructor <;> rfl

theorem alike_warmRested : (s.warmWritten rq).Alike (s.warmRested rq) := by
  have handed : (s.warmPassed rq).warmRouter.dropRunStarted.handedOver = s.handedOver := by
    have sched := (s.warmPassed_frame rq .ports).sched (by decide)
    have station := (s.warmPassed_frame rq .ports).station (by decide)
    simp only [handedOver, now_eq, warmRouter, dropRunStarted, sched, station]
  have routed (u : State) :
      Alike { u with inFlight := u.inFlight.filter fun c => !isRunStarted c } u.warmRouter.dropRunStarted := by
    constructor <;> simp only [warmRouter, dropRunStarted]
  have taken := (routed (s.warmPassed rq)).handOver s.handedOver
  have reset := (s.warmPassed rq).warmRouter.dropRunStarted.alike_warmSchedule
  rw [handed] at reset
  exact (taken.trans reset).warmMeasures

/-- What the recorder's part leaves, with the ACTIVE runs alone cut. -/
def warmReturned : State :=
  { allSvcs.foldl s.cutActive (s.warmWritten rq) with
    store := (allSvcs.foldl s.cutActive (s.warmWritten rq)).store.returnAll }.testBacklog

theorem alike_warmRecorder : (s.warmReturned rq).Alike (s.warmRested rq).warmRecorder := by
  have written : (s.warmWritten rq).recorder = s.recorder := by
    obtain ⟨x, ms, h⟩ := handOver_eq _ _
    rw [warmWritten, h]
    exact (s.warmPassed_frame rq .ports).recorder (by decide)
  have station : (s.warmWritten rq).station = s.station := by
    rw [← (s.alike_warmRested rq).station, warmRested_station]
  have cuts := (s.alike_warmRested rq).foldl_cutActive (s := s) (l := allSvcs) (List.nodup_finRange 16)
    station (fun i _ => by rw [warmRested_recorder, written])
    (fun i _ => by rw [written])
  unfold warmReturned
  rw [warmRecorder_eq]
  generalize allSvcs.foldl s.cutActive (s.warmWritten rq) = u at cuts
  generalize allSvcs.foldl warmWorked (s.warmRested rq) = w at cuts
  exact Alike.testBacklog ⟨cuts.station, cuts.map, cuts.compliance, congrArg Store.returnAll cuts.store, cuts.holds, cuts.bank,
    cuts.inFlight⟩

/-- R189: the increments under way taken by the bank. -/
def bankPending : State :=
  (s.inFlight.filterMap incrementOf).foldl (fun x c => x.bankAdd c)
    { s with inFlight := s.inFlight.filter fun c => (incrementOf c).isNone }

theorem warmBank_eq : s.warmBank = { s.bankPending with bank := s.bankPending.bank.zeroed } := rfl

theorem alike_bankPending {u w : State} (h : u.Alike w) : u.bankPending.Alike w.bankPending := by
  unfold bankPending
  rw [h.inFlight]
  refine Alike.foldl_bankAdd ?_ _
  constructor
  case inFlight => rfl
  exacts [h.station, h.map, h.compliance, h.store, h.holds, h.bank]

theorem bankAdd_mask (k : Counter) : (s.bankAdd k).bank.mask = s.bank.mask := by
  show (s.bank.setCell k _).mask = _
  cases k <;> rfl

theorem bankPending_mask : s.bankPending.bank.mask = s.bank.mask := by
  unfold bankPending
  exact foldl_induction (fun u => u.bank.mask = s.bank.mask) (fun u k h => (u.bankAdd_mask k).trans h) _ rfl

theorem alertNotice_not_increment (x : Bank) (time : Option Mi) (c k : Counter) : .counterIncrement k ∉ x.alertNotice time c := by
  unfold Bank.alertNotice
  split
  · exact List.not_mem_nil
  · split
    · exact fun mem => nomatch List.mem_singleton.mp mem
    · exact List.not_mem_nil

theorem bankPending_counted (k : Counter) : .counterIncrement k ∉ s.bankPending.inFlight := by
  refine foldl_induction (fun u => .counterIncrement k ∉ u.inFlight) (fun u c h mem => ?_) _ fun mem => ?_
  · exact (List.mem_append.mp mem).elim h (alertNotice_not_increment _ _ _ _)
  · exact Bool.noConfusion (List.mem_filter.mp mem).2

theorem bankPending_ports : s.bankPending.ports = s.ports := by
  unfold bankPending
  exact foldl_induction (fun u => u.ports = s.ports) (f := fun x c => x.bankAdd c) (fun _ _ h => h) _ rfl

theorem warmRecorder_ports : s.warmRecorder.ports = s.ports := by
  have cuts : (allSvcs.foldl warmWorked s).ports = s.ports :=
    foldl_induction (fun u => u.ports = s.ports) (f := warmWorked) (fun _ _ h => h) allSvcs rfl
  rw [warmRecorder_eq, testBacklog_ports]
  exact cuts

theorem respond_counted {k : Counter} (h : .counterIncrement k ∉ s.inFlight) (st : Status) (a : Answer) :
    .counterIncrement k ∉ (s.respond rq st a).inFlight := by
  unfold respond
  dsimp only
  split
  · exact h
  · split
    · split
      · exact h
      · exact fun mem => (List.mem_append.mp mem).elim h fun last => nomatch List.mem_singleton.mp last
    · exact h

/-! ### The ports (R175, R179) -/

theorem serve_line (p q : PortNo) : (s.serve p).ports[q].link = s.ports[q].link ∧ (s.serve p).ports[q].rx = s.ports[q].rx := by
  have placed (x : Port) (link : x.link = s.ports[p].link) (rx : x.rx = s.ports[p].rx) :
      (s.setPort p x).ports[q].link = s.ports[q].link ∧ (s.setPort p x).ports[q].rx = s.ports[q].rx := by
    by_cases same : q = p
    · subst same
      simp [link, rx]
    · have ne : (p : Nat) ≠ q := fun e => same (Fin.ext e.symm)
      simp [setPort, ne]
  unfold serve
  dsimp only
  split
  · exact ⟨rfl, rfl⟩
  · split
    · exact placed _ rfl rfl
    · split <;> exact placed _ rfl rfl

theorem passServed_line (q : PortNo) : s.passServed.ports[q].link = s.ports[q].link ∧ s.passServed.ports[q].rx = s.ports[q].rx :=
  foldl_induction (fun u => u.ports[q].link = s.ports[q].link ∧ u.ports[q].rx = s.ports[q].rx)
    (fun u p h => ⟨(u.serve_line p q).1.trans h.1, (u.serve_line p q).2.trans h.2⟩) allPorts ⟨rfl, rfl⟩

/-! ### What the reset leaves (R36, R37, R142) -/

/-- The last two parts of a warm reset change the bank, the messages under way and the ports. -/
theorem warmed_eq_bankPending :
    s.warmed rq straps =
      { (s.warmRested rq).warmRecorder.bankPending with
        bank := (s.warmRested rq).warmRecorder.bankPending.bank.zeroed
        ports := ((s.warmRested rq).warmRecorder.bankPending.warmPorts straps).ports } := by
  rw [warmed_eq, warmBank_eq]
  simp only [warmPorts]

theorem bankPending_frame : Frame .bank s s.bankPending :=
  (Frame.of_bank (t := { s with inFlight := s.inFlight.filter fun c => (incrementOf c).isNone }) rfl).trans (.foldl Frame.bankAdd _ _)

theorem warmed_frame_bank : Frame .bank (s.warmRested rq).warmRecorder (s.warmRested rq).warmRecorder.bankPending :=
  bankPending_frame _

theorem warmed_frame_store : Frame .store (s.warmRested rq) (s.warmRested rq).warmRecorder := .warmRecorder _

theorem warmed_compliance_eq : (s.warmed rq straps).compliance = (s.warmWritten rq).compliance := by
  simp only [warmed_eq_bankPending]
  rw [(s.warmed_frame_bank rq).compliance (by decide) (by decide), (s.warmed_frame_store rq).compliance (by decide) (by decide),
    (s.alike_warmRested rq).compliance]

theorem warmed_store_rested : (s.warmed rq straps).store = (s.warmRested rq).warmRecorder.store := by
  simp only [warmed_eq_bankPending]
  rw [(s.warmed_frame_bank rq).store (by decide)]

theorem warmed_store_eq : (s.warmed rq straps).store = (s.warmReturned rq).store :=
  (s.warmed_store_rested rq straps).trans (s.alike_warmRecorder rq).store

theorem warmed_inFlight_eq : (s.warmed rq straps).inFlight = (s.warmReturned rq).bankPending.inFlight := by
  simp only [warmed_eq_bankPending]
  rw [(alike_bankPending (s.alike_warmRecorder rq)).inFlight]

theorem warmed_archive_eq : (s.warmed rq straps).archive = ⟨[], s.archive.tokenCounter⟩ := by
  simp only [warmed_eq_bankPending]
  rw [(s.warmed_frame_bank rq).archive (by decide), warmRecorder_archive, warmRested_archive]

theorem warmed_recorder_rested : (s.warmed rq straps).recorder = (s.warmRested rq).warmRecorder.recorder := by
  simp only [warmed_eq_bankPending]
  rw [(s.warmed_frame_bank rq).recorder (by decide)]

theorem warmed_recorder_eq (i : Svc) :
    (s.warmed rq straps).recorder[i] = { Work.afterRun s.recorder[i] with runStart := none, enable := none } := by
  rw [warmed_recorder_rested, warmRecorder_recorder, warmRested_recorder]

theorem warmed_views_eq : (s.warmed rq straps).views = Vector.replicate 16 .present := by
  simp only [warmed_eq_bankPending]
  rw [(s.warmed_frame_bank rq).views (by decide) (by decide), (s.warmed_frame_store rq).views (by decide) (by decide),
    warmRested_views]

theorem warmed_openSpans_eq :
    (s.warmed rq straps).openSpans = mapVec (List.map (OpenSpan.endAt s.edges)) s.openSpans := by
  simp only [warmed_eq_bankPending]
  rw [(s.warmed_frame_bank rq).openSpans (by decide), (s.warmed_frame_store rq).openSpans (by decide), warmRested_openSpans]

theorem warmed_bank_eq : (s.warmed rq straps).bank = { Bank.powerOn with mask := s.bank.mask } := by
  simp only [warmed_eq_bankPending, Bank.zeroed]
  rw [bankPending_mask, (s.warmed_frame_store rq).bank (by decide), warmRested_bank]

/-- R175: a port at a warm reset, the straps read again. -/
def restrapped (x : Port) (p : PortNo) : Port :=
  { x.keepServed with strap := (rolesOf straps)[p], role := roleHeld (rolesOf straps) p }

theorem warmPorts_ports : (s.warmPorts straps).ports = Vector.ofFn fun p => restrapped straps s.ports[p] p := rfl

theorem warmed_ports_eq (p : PortNo) : (s.warmed rq straps).ports[p] = restrapped straps (s.warmPassed rq).ports[p] p := by
  have ports : (s.warmed rq straps).ports = Vector.ofFn fun p => restrapped straps (s.warmPassed rq).ports[p] p := by
    simp only [warmed_eq_bankPending]
    rw [warmPorts_ports, bankPending_ports, warmRecorder_ports, warmRested_ports]
  rw [ports]
  exact Vector.getElem_ofFn p.isLt

theorem warmed_router_eq (p : PortNo) :
    (s.warmed rq straps).router.ports[p] = { s.router.ports[p] with queue := [], dropped := 0, owed := 0, line := false } := by
  rw [warmed_router]
  exact mapVec_fin ..

/-- R36: no summary finds a segment after a warm reset. -/
theorem settle_of_nothing_closing {v : State} {i : Svc} (none : v.sched[i].closing = []) {x : ServiceSched} (same : x = v.sched[i]) :
    (v.setSched i x).settleClosing i = v := by
  rw [setSched_settleClosing, same]
  have done : v.sched[i].completing = [] := by rw [ServiceSched.completing, none]; rfl
  rw [if_pos done, ServiceSched.settled_of_completing_eq_nil done, setSched_self]

theorem exec_summaryArrival_of_nothing_closing {v : State} {i : Svc} (none : v.sched[i].closing = []) :
    (∀ inst m, exec (.meterSummaryArrival i inst m) v = .next (v.arrive (.meterSummaryArrival i inst m))) ∧
    ∀ inst m, exec (.captionSummaryArrival i inst m) v = .next (v.arrive (.captionSummaryArrival i inst m)) := by
  have kept {c : Instr} : (v.arrive c).sched[i].closing = [] := by rw [arrive_sched, none]
  refine ⟨fun inst m => congrArg Host.Outcome.next (settle_of_nothing_closing kept ?_),
    fun inst m => congrArg Host.Outcome.next (settle_of_nothing_closing kept ?_)⟩
  · rw [ServiceSched.takeMeterSummary, kept, List.map_nil, ← kept]
  · rw [ServiceSched.takeCaptionSummary, kept, List.map_nil, ← kept]

end State

end Sys2Proof.Machine
end

section
/-!
Warm reset (O60): the statement.
-/

namespace Sys2Proof.Machine

namespace State

variable (s : State) (rq : Req) (straps : Straps)

/-! ### What a warm reset leaves alone (R37, R118, R142, R185) -/

theorem warmRecorder_holds : s.warmRecorder.holds = s.holds := by
  have cuts : (allSvcs.foldl warmWorked s).holds = s.holds :=
    foldl_induction (fun u => u.holds = s.holds) (f := warmWorked) (fun _ _ h => h) allSvcs rfl
  rw [warmRecorder_eq, testBacklog_holds]
  exact cuts

theorem warmed_holds : (s.warmed rq straps).holds = s.holds :=
  s.warmed_keeps State.holds (fun _ _ => rfl) (fun u => (Frame.passServed .ports u).holds (by decide)) (fun _ => by rw [warmRouter])
    (fun u => (Frame.warmSchedule u).holds (by decide)) (fun _ => by rw [warmMeasures_eq]) warmRecorder_holds
    (fun u => (Frame.warmBank u).holds (by decide)) (fun _ _ => by rw [warmPorts]) rq straps

theorem warmed_lanes : (s.warmed rq straps).lanes = s.lanes :=
  s.warmed_keeps State.lanes (fun _ _ => rfl) (fun u => (Frame.passServed .ports u).lanes (by decide)) (fun _ => by rw [warmRouter])
    (fun u => (Frame.warmSchedule u).lanes (by decide)) (fun _ => by rw [warmMeasures_eq])
    (fun u => (Frame.warmRecorder u).lanes (by decide)) (fun u => (Frame.warmBank u).lanes (by decide))
    (fun _ _ => by rw [warmPorts]) rq straps

theorem warmed_clips : (s.warmed rq straps).clips = s.clips :=
  s.warmed_keeps State.clips (fun _ _ => rfl) (fun u => (Frame.passServed .ports u).clips (by decide)) (fun _ => by rw [warmRouter])
    (fun u => (Frame.warmSchedule u).clips (by decide)) (fun _ => by rw [warmMeasures_eq])
    (fun u => (Frame.warmRecorder u).clips (by decide)) (fun u => (Frame.warmBank u).clips (by decide))
    (fun _ _ => by rw [warmPorts]) rq straps

theorem warmed_edges : (s.warmed rq straps).edges = s.edges :=
  s.warmed_keeps State.edges (fun _ _ => rfl) (fun u => (Frame.passServed .ports u).edges (by decide)) (fun _ => by rw [warmRouter])
    (fun u => (Frame.warmSchedule u).edges (by decide)) (fun _ => by rw [warmMeasures_eq])
    (fun u => (Frame.warmRecorder u).edges (by decide)) (fun u => (Frame.warmBank u).edges (by decide))
    (fun _ _ => by rw [warmPorts]) rq straps

theorem warmed_shares : (s.warmed rq straps).shares = s.shares :=
  s.warmed_keeps State.shares (fun _ _ => rfl) (fun u => (Frame.passServed .bank u).shares (by decide)) (fun _ => by rw [warmRouter])
    (fun u => (Frame.warmSchedule u).shares (by decide)) (fun _ => by rw [warmMeasures_eq])
    (fun u => (Frame.warmRecorder u).shares (by decide)) (fun u => (Frame.warmBank u).shares (by decide))
    (fun _ _ => by rw [warmPorts]) rq straps

theorem warmed_groups : (s.warmed rq straps).groups = s.groups :=
  s.warmed_keeps State.groups (fun _ _ => rfl) (fun u => (Frame.passServed .ports u).groups (by decide)) (fun _ => by rw [warmRouter])
    warmSchedule_groups warmMeasures_groups (fun u => (Frame.warmRecorder u).groups (by decide))
    (fun u => (Frame.warmBank u).groups (by decide)) (fun _ _ => by rw [warmPorts]) rq straps

theorem warmed_map : (s.warmed rq straps).map = s.map :=
  s.warmed_keeps State.map (fun _ _ => rfl) (fun u => (Frame.passServed .ports u).map (by decide)) (fun _ => by rw [warmRouter])
    (fun u => by simp [warmSchedule]) (fun _ => by rw [warmMeasures_eq])
    (fun u => (Frame.warmRecorder u).map (by decide)) (fun u => (Frame.warmBank u).map (by decide))
    (fun _ _ => by rw [warmPorts]) rq straps

/-- The settings that a warm reset keeps (R36). -/
theorem eq_of_settings {r u : State} (station : r.station = u.station) (lanes : r.lanes = u.lanes) (map : r.map = u.map)
    (groups : r.groups = u.groups) (holds : r.holds = u.holds) (clips : r.clips = u.clips) (routes : r.router.routes = u.router.routes)
    (edges : r.edges = u.edges) (shares : r.shares = u.shares) (pending : r.pending = u.pending) :
    r = { r with
      station := u.station, lanes := u.lanes, map := u.map, groups := u.groups, holds := u.holds, clips := u.clips
      router := { r.router with routes := u.router.routes }, edges := u.edges, shares := u.shares, pending := u.pending } := by
  rw [← station, ← lanes, ← map, ← groups, ← holds, ← clips, ← routes, ← edges, ← shares, ← pending]

/-! ### The parts as the statement writes them -/

theorem warmPassed_eq {isReset : Instr → Bool} (h : ∀ c, isReset c = isWarmResetOf rq c) :
    (List.finRange 3).foldl (fun u p => u.serve p) { s with inFlight := s.inFlight.filter fun c => !isReset c } = s.warmPassed rq := by
  rw [funext h]
  rfl

theorem warmWritten_eq {isStart : Instr → Bool} (h : ∀ c, isStart c = isRunStarted c) :
    ({ s.warmPassed rq with inFlight := (s.warmPassed rq).inFlight.filter fun c => !isStart c }.complete s.handedOver).complete
      [.clearReferences] = s.warmWritten rq := by
  rw [funext h]
  rfl

theorem warmReturned_eq {cuts : State} (h : allSvcs.foldl s.cutActive (s.warmWritten rq) = cuts) :
    s.warmReturned rq =
      { cuts with store := { cuts.store with
        slots := cuts.store.slots.map fun e : Nat × Slot =>
          if e.2.state = SlotState.inTransfer then (e.1, { e.2 with state := SlotState.sealed }) else e } }.testBacklog := by
  subst h
  simp only [warmReturned, Store.returnAll, Slot.isInTransfer, beq_iff_eq]

theorem bankPending_eq {counter : Instr → Option Counter} (h : ∀ c, counter c = incrementOf c) :
    (s.inFlight.filterMap counter).foldl (fun u k => u.bankAdd k)
      { s with inFlight := s.inFlight.filter fun c => (counter c).isNone } = s.bankPending := by
  rw [funext h]
  rfl

theorem handedOver_eq :
    ((List.finRange 16).flatMap fun i : Svc =>
      (s.sched[i].closing.map fun g =>
        Waiting.completion i (if g.cause = some .skipped then g else { g with cause := some .reset }))
        ++ (match s.sched[i].openSeg with
          | none => []
          | some g => [Waiting.completion i { g with cause := some .reset, endMi := some (s.station.time.getD g.actualStart) }]))
      = s.handedOver := by
  refine congrArg (fun f => (List.finRange 16).flatMap f) (funext fun i => ?_)
  rw [ServiceSched.handedOver, List.map_append, List.map_map]
  refine congrArg₂ _ (List.map_congr_left fun g _ => congrArg (Waiting.completion i) g.reset_eq.symm) ?_
  cases s.sched[i].openSeg <;> rfl

end State

/-- Settles O60, block by block; what is written, cut and counted is the same with the other blocks cleared or not
(`State.Alike`). -/
theorem warmResetClearsRunsAndKeepsSettings : Obligations.WarmResetClearsRunsAndKeepsSettings := by
  unfold Obligations.WarmResetClearsRunsAndKeepsSettings
  intro s rq t time isReset isStart counter role strap held handed passed written cuts returned counted
  have passedIs : passed = s.warmPassed rq := s.warmPassed_eq rq fun c => by cases c <;> rfl
  have handedIs : handed = s.handedOver := s.handedOver_eq
  have writtenIs : written = s.warmWritten rq := by
    refine Eq.trans ?_ (s.warmWritten_eq rq (isStart := isStart) fun c => by cases c <;> rfl)
    rw [← passedIs, ← handedIs]
  have cutsIs : s.warmReturned rq = returned := s.warmReturned_eq rq (congrArg (fun u => allSvcs.foldl s.cutActive u) writtenIs.symm)
  have countedIs : counted = returned.bankPending := returned.bankPending_eq fun c => by cases c <;> rfl
  have strapIs : strap = rolesOf t := by
    simp only [strap, role, roleOf_eq_ite]
    rfl
  have compliance : (s.warmPassed rq).compliance = s.compliance := (s.warmPassed_frame rq .ports).compliance (by decide) (by decide)
  have settings := s.warmed_settings rq t
  simp only [Store.settings, Prod.mk.injEq] at settings
  obtain ⟨slotCount, reserve0, reserve1, reserve2, threshold⟩ := settings
  refine ⟨fun u p => rfl, fun u k => rfl, s.warmed rq t, _, State.exec_warmReset .., rfl, fun i => ?_, ?_, ?_, ?_, fun idle free => ?_,
    fun w busy => ?_, ?_, s.warmed_archive_eq rq t, ?_, ?_, ?_, ?_, ?_, ?_, ?_, fun good => ?_, fun p => ?_, s.warmed_bank_eq rq t, ?_,
    fun k => ?_, ?_⟩
  · have sched : (s.warmed rq t).sched[i] = s.sched[i].warmReset time := by
      rw [State.warmed_sched, mapVec_fin]
      rfl
    refine ⟨sched, ?_, ?_, ?_, ?_, s.warmed_recorder_eq rq t i, State.exec_summaryArrival_of_nothing_closing ?_⟩
    · rw [State.warmed_openSpans_eq, mapVec_fin]
      rfl
    · rw [State.warmed_views_eq]
      exact Vector.getElem_replicate i.isLt
    · rw [State.warmed_meter, mapVec_fin]
      rfl
    · rw [State.warmed_checker, mapVec_fin]
      rfl
    · rw [State.respond_sched, sched]
      rfl
  · rw [State.warmed_compliance_eq, ← writtenIs]
  · rw [State.warmed_compliance_eq, State.warmWritten, State.handOver_keeps.1]
    exact congrArg Compliance.profiles compliance
  · rw [State.warmed_compliance_eq, State.warmWritten, State.handOver_keeps.2]
    exact congrArg Compliance.mark compliance
  · rw [State.warmed_compliance_eq]
    refine State.handOver_of_idle ?_ ?_ s.unjudged_handedOver
    · exact (congrArg Compliance.writing compliance).trans free
    · exact (congrArg Compliance.waiting compliance).trans (((Compliance.good_iff _).mp idle).2 free)
  · rw [State.warmed_compliance_eq, State.warmWritten, State.handOver_of_writing, handedIs]
    · simp only [compliance]
    · simp only [compliance, busy, Option.isSome_some]
  · rw [State.warmed_store_eq, cutsIs]
  · exact slotCount
  · exact reserve0
  · exact reserve1
  · exact reserve2
  · exact threshold
  · rw [State.warmed_store_rested, ← s.warmRested_store rq]
    exact (State.warmRecorder_sealCount _).1
  · rw [State.warmed_store_rested, ← s.warmRested_store rq]
    exact (State.warmRecorder_sealCount _).2
  · have kept : (s.warmRested rq).GoodStore := good.of_eq (s.warmRested_store rq) (s.warmRested_recorder rq) (s.warmRested_archive rq)
    have after : (s.warmed rq t).GoodStore :=
      State.warmed_keeps_store (fun hu store recorder _ archive => hu.of_eq store recorder archive) (fun hu => hu.warmRecorder) good rq t
    refine ⟨after.settled (fun i => ?_) ?_, fun n y there still => ?_⟩
    · rw [State.warmed_recorder_eq]
      rfl
    · rw [State.warmed_archive_eq]
    · rw [State.warmed_store_rested]
      exact State.slotAt_warmRecorder kept (by rwa [State.warmRested_store]) still
  · refine ⟨s.warmed_router_eq rq t p, ?_, ?_⟩
    · rw [State.warmed_ports_eq, passedIs, State.restrapped, ← getElem_rolesHeld, ← strapIs]
      rfl
    · rw [passedIs]
      exact State.passServed_line _ p
  · rw [State.warmed_inFlight_eq, cutsIs, countedIs]
  · refine State.respond_counted _ _ ?_ _ _
    rw [State.warmed_inFlight_eq]
    exact State.bankPending_counted _ k
  · exact State.eq_of_settings (s.warmed_station rq t) (s.warmed_lanes rq t) (s.warmed_map rq t) (s.warmed_groups rq t)
      (s.warmed_holds rq t) (s.warmed_clips rq t) (by rw [State.warmed_router]) (s.warmed_edges rq t)
      (s.warmed_shares rq t) (s.warmed_pending rq t)

end Sys2Proof.Machine
end

section
/-!
Byte layouts (O53): numbers in a row, and what stands at a place of a layout.
-/

namespace Sys2Proof.Machine

/-! ### What stands at a place -/

/-- The bytes `m` stand in `l` at `off`. -/
def Stands (l : List Byte) (off : Nat) (m : List Byte) : Prop := ∃ a b, l = a ++ m ++ b ∧ a.length = off

namespace Stands

variable {l m x : List Byte} {off k n : Nat}

theorem self (l : List Byte) : Stands l 0 l := ⟨[], [], by simp, rfl⟩

theorem left (m x : List Byte) : Stands (m ++ x) 0 m := ⟨[], x, rfl, rfl⟩

theorem right (m x : List Byte) : Stands (m ++ x) m.length x := ⟨m, [], by simp, rfl⟩

theorem trans (h : Stands l off m) (h' : Stands m k x) : Stands l (off + k) x := by
  obtain ⟨a, b, rfl, rfl⟩ := h
  obtain ⟨c, d, rfl, rfl⟩ := h'
  exact ⟨a ++ c, d ++ b, by simp, by simp⟩

theorem bytes (h : Stands l off m) : (l.drop off).take m.length = m := by
  obtain ⟨a, b, rfl, rfl⟩ := h
  rw [List.append_assoc, List.drop_left, List.take_left]

/-- 10.8.1: a number shows its low bytes. -/
theorem num (h : Stands l off (be k n)) : ofBe ((l.drop off).take k) = n % 256 ^ k := by
  have := h.bytes
  rw [be_length] at this
  rw [this, ofBe_be]

theorem num_of_lt (h : Stands l off (be k n)) (fits : n < 256 ^ k) : ofBe ((l.drop off).take k) = n :=
  h.num.trans (Nat.mod_eq_of_lt fits)

theorem byte {b : Byte} (h : Stands l off [b]) : ofBe ((l.drop off).take 1) = b.toNat := by
  have := h.bytes
  rw [List.length_singleton] at this
  rw [this]
  simp [ofBe]

/-- An element of a list whose elements take `k` bytes each. -/
theorem flatMap {α : Type} {f : α → List Byte} {xs : List α} {j : Nat} {y : α} (width : ∀ z ∈ xs, (f z).length = k)
    (at_ : xs[j]? = some y) : Stands (xs.flatMap f) (k * j) (f y) := by
  induction xs generalizing j with
  | nil => cases at_
  | cons z zs ih =>
    cases j with
    | zero =>
      obtain rfl := Option.some.inj at_
      rw [List.flatMap_cons]
      exact left _ _
    | succ j =>
      have rest := ih (fun z mem => width z (.tail _ mem)) (j := j) at_
      have here := (right (f z) (zs.flatMap f)).trans rest
      rw [width z (.head _), Nat.add_comm] at here
      rw [List.flatMap_cons]
      exact here

end Stands

/-! ### Numbers in a row -/

/-- Numbers in a row, each in its size. -/
def spell (ps : List (Nat × Nat)) : List Byte := ps.flatMap fun p => be p.1 p.2

theorem spell_length (ps : List (Nat × Nat)) : (spell ps).length = (ps.map Prod.fst).sum := by
  induction ps with
  | nil => rfl
  | cons p ps ih => simp only [spell, List.flatMap_cons, List.length_append, be_length, List.map_cons, List.sum_cons] at ih ⊢; rw [ih]

theorem spell_append (ps qs : List (Nat × Nat)) : spell (ps ++ qs) = spell ps ++ spell qs := List.flatMap_append

theorem spell_cons (k n : Nat) (ps : List (Nat × Nat)) : spell ((k, n) :: ps) = be k n ++ spell ps := List.flatMap_cons

theorem spell_nil : spell [] = [] := rfl

/-- A number of a row stands behind those before it. -/
theorem Stands.spell {ps : List (Nat × Nat)} {i k n : Nat} (at_ : ps[i]? = some (k, n)) :
    Stands (spell ps) ((ps.map Prod.fst).take i).sum (be k n) := by
  induction ps generalizing i with
  | nil => cases at_
  | cons p ps ih =>
    cases i with
    | zero =>
      obtain rfl := Option.some.inj at_
      rw [spell_cons]
      exact .left _ _
    | succ i =>
      obtain ⟨m, v⟩ := p
      have := (Stands.right (be m v) _).trans (ih (i := i) at_)
      rwa [be_length] at this

/-! ### Fields (10.8.1) -/

theorem be_zero (k : Nat) : be k 0 = List.replicate k 0 := by
  induction k with
  | zero => rfl
  | succ k ih => rw [be, ih, Nat.zero_div]; rfl

theorem be_one (b : Byte) : be 1 b.toNat = [b] := by simp [be]

theorem idField_eq (id : Option Nat) : idField id = be 1 (if id.isSome then 1 else 0) ++ be 4 (id.getD 0) := by
  cases id <;> simp [idField, be]

theorem miField_eq (m : Option Mi) : miField m = be 1 (if m.isNone then 1 else 0) ++ be 5 (m.getD 0) := by
  cases m <;> simp [miField, be]

/-- 10.8.1: a signed number in 2 bytes. -/
def signed16 (c : Int) : Nat := (c % 2 ^ 16).toNat

theorem signed16_lt (c : Int) : signed16 c < 256 ^ 2 := by
  unfold signed16
  omega

theorem be16_eq (c : Int) : be16 c = be 2 (signed16 c) := by
  rw [be16, BitVec.toNat_ofInt]
  rfl

theorem codeOrNone_eq (c : Option Int) : codeOrNone c = be 2 ((c.map signed16).getD 0x8000) := by
  cases c with
  | none => rfl
  | some c => exact be16_eq c

theorem codeOrMissing_eq (c : Option Int) : codeOrMissing c = be 2 ((c.map signed16).getD 0x8001) := by
  cases c with
  | none => rfl
  | some c => exact be16_eq c

theorem code_lt (c : Option Int) {d : Nat} (h : d < 256 ^ 2) : (c.map signed16).getD d < 256 ^ 2 := by
  cases c with
  | none => exact h
  | some c => exact signed16_lt c

theorem padTo_eq (n : Nat) (l : List Byte) : padTo n l = l ++ be (n - l.length) 0 := by rw [be_zero]; rfl

/-! ### The compliance record (10.8.3) -/

/-- The fields of a record, with their sizes. -/
def recordParts (r : Record) : List (Nat × Nat) :=
  [(6, r.seq), (1, r.svc.val), (1, (classCode r.cls).val), (1, r.profile.val), (1, (causeCode r.cause).toNat),
    (1, (recordFlags r).toNat), (1, if r.id.isSome then 1 else 0), (4, r.id.getD 0), (5, r.stagedStart), (5, r.actualStart),
    (5, r.endMi), (1, (holdByte r.hold).toNat), (4, r.positions), (4, r.binned), (4, r.belowGate), (4, r.excluded), (4, r.overRange),
    (2, (r.integrated.map signed16).getD 0x8001), (2, (r.maxMomentary.map signed16).getD 0x8000),
    (2, (r.maxShortTerm.map signed16).getD 0x8000), (2, (r.peak.map signed16).getD 0x8001),
    (2, ((r.refUsed.map (·.code)).map signed16).getD 0x8000), (6, (r.refUsed.map (·.seq)).getD 0), (4, r.judged), (4, r.audible),
    (4, r.covered), (4, r.gapCount), (4, r.longestGap), (4, r.streamLost), (1, (resultCode r.checks.loudness).toNat),
    (1, (resultCode r.checks.shortTerm).toNat), (1, (resultCode r.checks.peak).toNat), (1, (resultCode r.checks.relative).toNat),
    (1, (resultCode r.checks.coverage).toNat), (1, (resultCode r.checks.captionGap).toNat), (1, (resultCode r.verdict).toNat),
    (1, r.lostBefore)]

/-- The sizes of the fields of a record. -/
def recordSizes : List Nat :=
  [6, 1, 1, 1, 1, 1, 1, 4, 5, 5, 5, 1, 4, 4, 4, 4, 4, 2, 2, 2, 2, 2, 6, 4, 4, 4, 4, 4, 4, 1, 1, 1, 1, 1, 1, 1, 1]

theorem recordParts_sizes (r : Record) : (recordParts r).map Prod.fst = recordSizes := rfl

theorem map_resultCode (c : Checks) :
    c.list.map resultCode =
      be 1 (resultCode c.loudness).toNat ++ (be 1 (resultCode c.shortTerm).toNat ++ (be 1 (resultCode c.peak).toNat ++
        (be 1 (resultCode c.relative).toNat ++ (be 1 (resultCode c.coverage).toNat ++ be 1 (resultCode c.captionGap).toNat)))) := by
  simp only [be_one, Checks.list, List.map_cons, List.map_nil, List.cons_append, List.nil_append]

theorem recordBytes_eq (r : Record) : recordBytes r = spell (recordParts r) := by
  unfold recordBytes
  rw [map_resultCode]
  simp only [idField_eq, codeOrMissing_eq, codeOrNone_eq]
  simp only [← be_one]
  simp only [List.append_assoc]
  simp only [recordParts, spell_cons, spell_nil, List.append_nil]

theorem recordBytes_length (r : Record) : (recordBytes r).length = 100 := by
  rw [recordBytes_eq, spell_length, recordParts_sizes]
  decide

/-- A field of a record. -/
theorem recordBytes_stands (r : Record) (i : Nat) {off k n : Nat} (at_ : (recordParts r)[i]? = some (k, n))
    (place : (recordSizes.take i).sum = off) : Stands (recordBytes r) off (be k n) := by
  rw [recordBytes_eq, ← place, ← recordParts_sizes r]
  exact .spell at_

/-! ### The notice record (10.8.4) -/

/-- The detail of a notice, with the sizes of its fields. -/
def detailParts : Detail → List (Nat × Nat)
  | .nothing => []
  | .sequence n => [(6, n)]
  | .gap id first => [(1, if id.isSome then 1 else 0), (4, id.getD 0), (5, first)]
  | .captionStream l st => [(1, l), (1, st)]
  | .audioLane l => [(1, l)]
  | .segment id => [(1, if id.isSome then 1 else 0), (4, id.getD 0)]
  | .priority p => [(1, p)]
  | .lostChunk slot start => [(2, slot), (5, start)]
  | .backlog b t => [(4, b), (4, t)]
  | .take slot token => [(2, slot), (2, token)]
  | .counter c => [(1, counterKind c), (1, (counterOwner c).toNat)]

/-- The bytes of a detail that are used. -/
def detailSize (d : Detail) : Nat := ((detailParts d).map Prod.fst).sum

theorem detailBytes_eq (d : Detail) : detailBytes d = spell (detailParts d) := by
  cases d <;> simp only [detailBytes, detailParts, spell_cons, spell_nil, ← be_one, idField_eq, List.append_assoc, List.append_nil]

theorem detailSize_le (d : Detail) : detailSize d ≤ 12 := by
  cases d <;> simp [detailSize, detailParts]

/-- The fields of a notice before its detail. -/
def noticeFront (r : NoticeRecord) : List (Nat × Nat) :=
  [(1, noticeCode r.notice.kind), (1, (svcField r.notice.svc).toNat), (1, if r.notice.mi.isNone then 1 else 0),
    (5, r.notice.mi.getD 0)]

theorem noticeBytes_eq (r : NoticeRecord) :
    noticeBytes r =
      spell (noticeFront r) ++ (spell (detailParts r.notice.detail) ++ be (12 - detailSize r.notice.detail) 0)
        ++ be 4 r.droppedBefore := by
  have front : be 1 (noticeCode r.notice.kind) ++ [svcField r.notice.svc] ++ miField r.notice.mi = spell (noticeFront r) := by
    simp only [miField_eq, ← be_one, noticeFront, spell_cons, spell_nil, List.append_assoc, List.append_nil]
  rw [noticeBytes, front, padTo_eq, detailBytes_eq, spell_length, ← detailSize]

section
variable (r : NoticeRecord)

theorem noticeBytes_length : (noticeBytes r).length = 24 := by
  have := detailSize_le r.notice.detail
  have front : (spell (noticeFront r)).length = 8 := spell_length _
  rw [noticeBytes_eq, List.length_append, List.length_append, List.length_append, front, be_length, be_length, spell_length, ← detailSize]
  omega

theorem noticeBytes_front : Stands (noticeBytes r) 0 (spell (noticeFront r)) := by
  rw [noticeBytes_eq, List.append_assoc]
  exact .left _ _

theorem noticeBytes_dropped : Stands (noticeBytes r) 20 (be 4 r.droppedBefore) := by
  have size := noticeBytes_length r
  rw [noticeBytes_eq] at size ⊢
  have last := Stands.right (spell (noticeFront r) ++ (spell (detailParts r.notice.detail) ++ be (12 - detailSize r.notice.detail) 0))
    (be 4 r.droppedBefore)
  rw [List.length_append, be_length] at size
  rwa [Nat.succ.inj (Nat.succ.inj (Nat.succ.inj (Nat.succ.inj size)))] at last

theorem noticeBytes_detail :
    Stands (noticeBytes r) 8 (spell (detailParts r.notice.detail) ++ be (12 - detailSize r.notice.detail) 0) := by
  have front : (spell (noticeFront r)).length = 8 := spell_length _
  have middle := Stands.right (spell (noticeFront r)) (spell (detailParts r.notice.detail) ++ be (12 - detailSize r.notice.detail) 0)
  have whole := (Stands.left _ (be 4 r.droppedBefore)).trans middle
  rwa [← noticeBytes_eq, front] at whole

end

end Sys2Proof.Machine
end

section
/-!
The chunk payload (10.8.5) and the statement about layouts (O53).
-/

namespace Sys2Proof.Machine

/-! ### Bytes brought to a length with zeros -/

theorem Stands.zeros {j k n : Nat} (h : j + k ≤ n) : Stands (be n 0) j (be k 0) := by
  refine ⟨be j 0, be (n - (j + k)) 0, ?_, be_length ..⟩
  simp only [be_zero, List.replicate_append_replicate]
  rw [Nat.add_sub_cancel' h]

theorem padTo_length {n : Nat} {l : List Byte} (h : l.length ≤ n) : (padTo n l).length = n := by
  rw [padTo_eq, List.length_append, be_length, Nat.add_sub_cancel' h]

theorem flatMap_length_of_width {α : Type} {f : α → List Byte} {k : Nat} {xs : List α} (width : ∀ z ∈ xs, (f z).length = k) :
    (xs.flatMap f).length = k * xs.length := by
  induction xs with
  | nil => rfl
  | cons z zs ih =>
    rw [List.flatMap_cons, List.length_append, width z (.head _), ih fun z mem => width z (.tail _ mem), List.length_cons, Nat.mul_succ,
      Nat.add_comm]

/-- An entry of a list of entries of `k` bytes each, brought to `m` entries with zeros. -/
theorem Stands.padTo {α : Type} {f : α → List Byte} {k m : Nat} {xs : List α} (width : ∀ z ∈ xs, (f z).length = k)
    {j : Nat} (inside : j < m) : Stands (padTo (k * m) (xs.flatMap f)) (k * j) ((xs[j]?).elim (be k 0) f) := by
  rw [padTo_eq]
  cases at_ : xs[j]? with
  | some z =>
    have := (Stands.left (xs.flatMap f) (be (k * m - (xs.flatMap f).length) 0)).trans (Stands.flatMap width at_)
    rwa [Nat.zero_add] at this
  | none =>
    have beyond := Nat.mul_le_mul_left k (List.getElem?_eq_none_iff.mp at_)
    have upTo : k * j + k ≤ k * m := Nat.mul_succ k j ▸ Nat.mul_le_mul_left k inside
    rw [flatMap_length_of_width width]
    have := (Stands.right (xs.flatMap f) (be (k * m - k * xs.length) 0)).trans
      (Stands.zeros (j := k * j - k * xs.length) (k := k) (by omega))
    rwa [flatMap_length_of_width width, Nat.add_sub_cancel' beyond] at this

/-! ### The header (10.8.5) -/

/-- The fields of a header before its segment list. -/
def headerFront (y : Slot) : List (Nat × Nat) :=
  [(1, y.svc.val),
    (1, match y.keepUsed with
      | .normal => 0
      | .reduced => 1),
    (1, (if y.cutShort then 1 else 0) + (if y.fillFrames then 2 else 0)), (1, y.chunk.segments.length),
    (1, (boolByte y.chunk.more).toNat), (5, y.start), (5, y.chunk.first), (5, y.chunk.endMi), (4, y.sealNo.getD 0),
    (4, y.chunk.keep.toNat), (4, y.chunk.absent.toNat)]

/-- The fields of a header between its segment list and its frame list. -/
def headerMiddle (y : Slot) : List (Nat × Nat) :=
  [(1, y.chunk.frames.length), (2, y.chunk.packets.length), (2, min 65535 y.chunk.overflow.toList.sum), (4, 384000),
    (4, 12288 * y.chunk.frames.length), (4, 48 * y.chunk.packets.length)]

/-- The entry of a frame in the header. -/
def frameEntry (f : StoredFrame) : List Byte := be 1 (if f.offset < 10 then 0 else 1) ++ be 1 f.position

theorem idField_length (id : Option Nat) : (idField id).length = 5 := by
  rw [idField_eq, List.length_append, be_length, be_length]

theorem frameEntry_length (f : StoredFrame) : (frameEntry f).length = 2 := by
  rw [frameEntry, List.length_append, be_length, be_length]

/-- The parts of a header before the zeros at its end. -/
def headerFields (y : Slot) : List Byte :=
  spell (headerFront y) ++ (padTo (5 * 8) (y.chunk.segments.flatMap idField) ++ (spell (headerMiddle y)
    ++ padTo (2 * 50) (y.chunk.frames.flatMap frameEntry)))

theorem chunkHeader_eq (y : Slot) : chunkHeader y = padTo 4096 (headerFields y) := by
  have front : be 1 y.svc.val ++ be 1 (match y.keepUsed with
        | .normal => 0
        | .reduced => 1)
      ++ be 1 ((if y.cutShort then 1 else 0) + (if y.fillFrames then 2 else 0))
      ++ be 1 y.chunk.segments.length ++ [boolByte y.chunk.more] ++ be 5 y.start ++ be 5 y.chunk.first ++ be 5 y.chunk.endMi
      ++ be 4 (y.sealNo.getD 0) ++ be 4 y.chunk.keep.toNat ++ be 4 y.chunk.absent.toNat = spell (headerFront y) := by
    simp only [← be_one, headerFront, spell_cons, spell_nil, List.append_assoc, List.append_nil]
  have middle (l : List Byte) : l ++ be 1 y.chunk.frames.length ++ be 2 y.chunk.packets.length ++ be 2 (overflowCount y.chunk.overflow)
      ++ be 4 audioBytes ++ be 4 (12288 * y.chunk.frames.length) ++ be 4 (entryBytes * y.chunk.packets.length)
        = l ++ spell (headerMiddle y) := by
    simp only [headerMiddle, spell_cons, spell_nil, List.append_assoc, List.append_nil, overflowCount, audioBytes, entryBytes]
  unfold chunkHeader
  dsimp only
  refine congrArg (padTo 4096) ?_
  rw [middle, headerFields, List.append_assoc, List.append_assoc]
  refine congrArg₂ _ (Eq.trans ?_ front) rfl
  rfl

/-- The bounds of a chunk (R131 to R134). -/
structure Slot.Fits (y : Slot) : Prop where
  audio    : ∀ o : Fin 20, y.chunk.audio[o].length ≤ 4800
  frames   : y.chunk.frames.length ≤ 50
  packets  : y.chunk.packets.length ≤ 512
  segments : y.chunk.segments.length ≤ 8
  bytes    : ∀ f ∈ y.chunk.frames, f.bytes.length = 12288

section
variable {y : Slot} (fits : y.Fits)
include fits

theorem Slot.Fits.segmentList_length : (padTo (5 * 8) (y.chunk.segments.flatMap idField)).length = 40 := by
  have := fits.segments
  refine padTo_length ?_
  rw [flatMap_length_of_width fun id _ => idField_length id]
  omega

theorem Slot.Fits.frameList_length : (padTo (2 * 50) (y.chunk.frames.flatMap frameEntry)).length = 100 := by
  have := fits.frames
  refine padTo_length ?_
  rw [flatMap_length_of_width fun f _ => frameEntry_length f]
  omega

theorem Slot.Fits.headerFields_length : (headerFields y).length = 189 := by
  have front : (spell (headerFront y)).length = 32 := spell_length _
  have middle : (spell (headerMiddle y)).length = 17 := spell_length _
  rw [headerFields, List.length_append, List.length_append, List.length_append, front, middle, fits.segmentList_length,
    fits.frameList_length]

theorem Slot.Fits.header_length : (chunkHeader y).length = 4096 := by
  rw [chunkHeader_eq]
  exact padTo_length (by rw [fits.headerFields_length]; decide)

/-- The parts of a header at their places. -/
theorem Slot.Fits.header_parts :
    Stands (chunkHeader y) 0 (spell (headerFront y)) ∧
    Stands (chunkHeader y) 32 (padTo (5 * 8) (y.chunk.segments.flatMap idField)) ∧
    Stands (chunkHeader y) 72 (spell (headerMiddle y)) ∧
    Stands (chunkHeader y) 89 (padTo (2 * 50) (y.chunk.frames.flatMap frameEntry)) ∧
    Stands (chunkHeader y) 189 (be 3907 0) := by
  have front : (spell (headerFront y)).length = 32 := spell_length _
  have middle : (spell (headerMiddle y)).length = 17 := spell_length _
  have fields : Stands (chunkHeader y) 0 (headerFields y) := by
    rw [chunkHeader_eq, padTo_eq]
    exact .left _ _
  have rest := Stands.right (headerFields y) (be (4096 - (headerFields y).length) 0)
  rw [← padTo_eq, ← chunkHeader_eq, fits.headerFields_length] at rest
  have second := fields.trans (Stands.right (spell (headerFront y)) _)
  have third := second.trans (Stands.right (padTo (5 * 8) (y.chunk.segments.flatMap idField)) _)
  have fourth := third.trans (Stands.right (spell (headerMiddle y)) _)
  rw [front] at second third fourth
  rw [fits.segmentList_length] at third fourth
  rw [middle] at fourth
  exact ⟨fields.trans (.left _ _), second.trans (.left _ _), third.trans (.left _ _), fourth, rest⟩

end

/-! ### The areas behind the header (10.8.5) -/

theorem audioArea_eq (places : List (Int × Int)) :
    audioArea places = padTo (4 * 4800) (places.flatMap fun p => be 2 (signed16 p.1) ++ be 2 (signed16 p.2)) := by
  simp only [audioArea, areaPlaces, be16_eq]

theorem audioArea_length {places : List (Int × Int)} (h : places.length ≤ 4800) : (audioArea places).length = 19200 := by
  rw [audioArea_eq]
  refine padTo_length ?_
  rw [flatMap_length_of_width (k := 4) fun p _ => by rw [List.length_append, be_length, be_length]]
  omega

/-- The numbers of a caption packet entry before its characters. -/
def packetFront (q : StoredPacket) : List (Nat × Nat) :=
  [(1, q.offset + if q.packet.duration.isNone then 128 else 0), (1, q.packet.kind), (1, q.packet.row), (1, q.packet.count),
    (2, q.packet.duration.getD 0)]

theorem packetEntry_eq (q : StoredPacket) :
    packetEntry q = spell (packetFront q) ++ padTo (1 * 42) ((q.packet.chars.take 42).flatMap fun b => [b]) := by
  have mark : (match q.packet.duration with
      | none => 128
      | some _ => 0 : Nat) = if q.packet.duration.isNone then 128 else 0 := by cases q.packet.duration <;> rfl
  have front : (spell (packetFront q)).length = 6 := spell_length _
  have parts : packetEntry q = padTo 48 (spell (packetFront q) ++ q.packet.chars.take 42) := by
    unfold packetEntry
    dsimp only
    simp only [packetFront, spell_cons, spell_nil, List.append_assoc, List.append_nil, ← mark, entryBytes] <;> rfl
  rw [parts, padTo_eq, padTo_eq, List.flatMap_singleton', List.append_assoc, List.length_append, front, Nat.sub_add_eq]

theorem packetEntry_length (q : StoredPacket) : (packetEntry q).length = 48 := by
  have front : (spell (packetFront q)).length = 6 := spell_length _
  rw [packetEntry_eq, List.length_append, front, padTo_length]
  rw [List.flatMap_singleton']
  exact List.length_take_le ..

theorem packets_length (y : Slot) : (y.chunk.packets.flatMap packetEntry).length = 48 * y.chunk.packets.length :=
  flatMap_length_of_width fun q _ => packetEntry_length q

section
variable {y : Slot} (fits : y.Fits)
include fits

theorem Slot.Fits.audio_length : (y.chunk.audio.toList.flatMap audioArea).length = 384000 := by
  have width : ∀ z ∈ y.chunk.audio.toList, (audioArea z).length = 19200 := by
    intro z mem
    obtain ⟨o, inside, rfl⟩ := List.getElem_of_mem mem
    rw [Vector.length_toList] at inside
    exact audioArea_length (fits.audio ⟨o, inside⟩)
  rw [flatMap_length_of_width width, Vector.length_toList]

theorem Slot.Fits.frames_length : (y.chunk.frames.flatMap (·.bytes)).length = 12288 * y.chunk.frames.length :=
  flatMap_length_of_width fits.bytes

theorem Slot.Fits.payload_length :
    (chunkPayload y).length = 4096 + 384000 + 12288 * y.chunk.frames.length + 48 * y.chunk.packets.length := by
  rw [chunkPayload, List.length_append, List.length_append, List.length_append, fits.header_length, fits.audio_length,
    fits.frames_length, packets_length]

/-- The areas of a payload at their places. -/
theorem Slot.Fits.payload_parts :
    Stands (chunkPayload y) 0 (chunkHeader y) ∧
    Stands (chunkPayload y) 4096 (y.chunk.audio.toList.flatMap audioArea) ∧
    Stands (chunkPayload y) 388096 (y.chunk.frames.flatMap (·.bytes)) ∧
    Stands (chunkPayload y) (388096 + 12288 * y.chunk.frames.length) (y.chunk.packets.flatMap packetEntry) := by
  have whole : Stands (chunkPayload y) 0
      (chunkHeader y ++ (y.chunk.audio.toList.flatMap audioArea ++ (y.chunk.frames.flatMap (·.bytes)
        ++ y.chunk.packets.flatMap packetEntry))) := by
    simp only [chunkPayload, List.append_assoc]
    exact .self _
  have audio := whole.trans (Stands.right (chunkHeader y) _)
  have frames := audio.trans (Stands.right (y.chunk.audio.toList.flatMap audioArea) _)
  have packets := frames.trans (Stands.right (y.chunk.frames.flatMap (·.bytes)) _)
  rw [fits.header_length] at audio frames packets
  rw [fits.audio_length] at frames packets
  rw [fits.frames_length] at packets
  exact ⟨whole.trans (.left _ _), audio.trans (.left _ _), frames.trans (.left _ _), packets⟩

/-- The samples of a place of an MI area. -/
theorem Slot.Fits.samples_stand (o : Fin 20) {j : Nat} (inside : j < 4800) :
    Stands (chunkPayload y) (4096 + 19200 * o.val + 4 * j)
      ((y.chunk.audio[o][j]?).elim (be 4 0) fun p => be 2 (signed16 p.1) ++ be 2 (signed16 p.2)) := by
  have width : ∀ z ∈ y.chunk.audio.toList, (audioArea z).length = 19200 := by
    intro z mem
    obtain ⟨o, inside, rfl⟩ := List.getElem_of_mem mem
    rw [Vector.length_toList] at inside
    exact audioArea_length (fits.audio ⟨o, inside⟩)
  have area := Stands.flatMap (f := audioArea) width (j := o.val) (y := y.chunk.audio[o])
    (by simp)
  have place := Stands.padTo (f := fun p : Int × Int => be 2 (signed16 p.1) ++ be 2 (signed16 p.2)) (k := 4) (m := 4800)
    (xs := y.chunk.audio[o]) (fun p _ => by rw [List.length_append, be_length, be_length]) inside
  rw [← audioArea_eq] at place
  exact (fits.payload_parts.2.1.trans area).trans place

/-- The fields of a caption packet entry. -/
theorem Slot.Fits.packet_stands {j : Nat} {q : StoredPacket} (at_ : y.chunk.packets[j]? = some q) :
    Stands (chunkPayload y) (388096 + 12288 * y.chunk.frames.length + 48 * j) (packetEntry q) :=
  fits.payload_parts.2.2.2.trans (Stands.flatMap (fun q _ => packetEntry_length q) at_)

end

theorem packetEntry_front (q : StoredPacket) : Stands (packetEntry q) 0 (spell (packetFront q)) := by
  rw [packetEntry_eq]
  exact .left _ _

theorem packetEntry_char (q : StoredPacket) {n : Nat} (inside : n < 42) :
    Stands (packetEntry q) (6 + n) ((q.packet.chars[n]?).elim (be 1 0) fun b => [b]) := by
  have front : (spell (packetFront q)).length = 6 := spell_length _
  have chars := Stands.right (spell (packetFront q)) (padTo (1 * 42) ((q.packet.chars.take 42).flatMap fun b => [b]))
  rw [front, ← packetEntry_eq] at chars
  have place := Stands.padTo (f := fun b : Byte => [b]) (k := 1) (m := 42) (xs := q.packet.chars.take 42) (fun _ _ => rfl) inside
  rw [List.getElem?_take_of_lt inside, Nat.one_mul n] at place
  exact chars.trans place

end Sys2Proof.Machine
end

section
/-!
Layouts (O53): the statement, field by field.
-/

namespace Sys2Proof.Machine

/-! ### The parts of a response (10.8.2) -/

theorem be_four (n : Nat) : be 4 n = be 2 (n / 2 ^ 16) ++ be 2 n := by
  simp only [be, List.cons_append, List.nil_append, Nat.div_div_eq_div_mul]
  norm_num

theorem be_six (n : Nat) : be 6 n = be 2 (n / 2 ^ 32) ++ be 4 n := by
  simp only [be, List.cons_append, List.nil_append, Nat.div_div_eq_div_mul]
  norm_num

theorem boolByte_eq (b : Bool) : boolByte b = if b then 1 else 0 := rfl

theorem noticeBytes_head (n : NoticeRecord) : (noticeBytes n).head? = some (BitVec.ofNat 8 (noticeCode n.notice.kind)) := by
  rw [noticeBytes_eq, noticeFront, spell_cons]
  simp [be]

theorem noticeCode_lt (k : NoticeKind) : noticeCode k < 256 ^ 1 := by cases k <;> decide

/-- Two numbers next to each other. -/
theorem Stands.pair {l : List Byte} {off a m b n : Nat} (h : Stands l off (be a m ++ be b n)) :
    Stands l off (be a m) ∧ Stands l (off + a) (be b n) := by
  have second := h.trans (.right _ _)
  rw [be_length] at second
  exact ⟨h.trans (.left _ _), second⟩

/-- Settles O53: each layout as its numbers in a row, read at their places (`Stands`). -/
theorem layoutsHaveTheirLengths : Obligations.LayoutsHaveTheirLengths := by
  unfold Obligations.LayoutsHaveTheirLengths
  intro num signed code bit result hasId
  have flag (b : Bool) : (if b = true then 1 else 0) < 256 ^ 1 := by cases b <;> decide
  have checked (c : CheckResult) : (resultCode c).toNat = result c := by cases c <;> rfl
  refine ⟨fun r => ?_, fun r => ?_, fun r => ?_, fun y audio frames packets segments bytes => ?_⟩
  · intro l
    have at_ := recordBytes_stands r
    have resulted (c : CheckResult) {i : Nat} {off : Nat} (h : (recordParts r)[i]? = some (1, (resultCode c).toNat))
        (place : (recordSizes.take i).sum = off) : num l off 1 = result c :=
      ((at_ i h place).num_of_lt (BitVec.isLt _)).trans (checked c)
    refine ⟨recordBytes_length r, fun fits => ?_, (at_ 0 rfl rfl).num, (at_ 1 rfl rfl).num_of_lt (r.svc.isLt.trans (by decide)), ?_,
      (at_ 3 rfl rfl).num_of_lt (r.profile.isLt.trans (by decide)), ?_, ?_,
      ⟨(at_ 6 rfl rfl).num_of_lt (flag _), (at_ 7 rfl rfl).num⟩, (at_ 8 rfl rfl).num, (at_ 9 rfl rfl).num, (at_ 10 rfl rfl).num, ?_,
      (at_ 12 rfl rfl).num, (at_ 13 rfl rfl).num, (at_ 14 rfl rfl).num, (at_ 15 rfl rfl).num, (at_ 16 rfl rfl).num,
      (at_ 17 rfl rfl).num_of_lt (code_lt _ (by decide)), (at_ 18 rfl rfl).num_of_lt (code_lt _ (by decide)),
      (at_ 19 rfl rfl).num_of_lt (code_lt _ (by decide)), (at_ 20 rfl rfl).num_of_lt (code_lt _ (by decide)),
      (at_ 21 rfl rfl).num_of_lt (code_lt _ (by decide)), (at_ 22 rfl rfl).num, (at_ 23 rfl rfl).num, (at_ 24 rfl rfl).num,
      (at_ 25 rfl rfl).num, (at_ 26 rfl rfl).num, (at_ 27 rfl rfl).num, (at_ 28 rfl rfl).num, resulted _ (i := 29) rfl rfl,
      resulted _ (i := 30) rfl rfl, resulted _ (i := 31) rfl rfl, resulted _ (i := 32) rfl rfl, resulted _ (i := 33) rfl rfl,
      resulted _ (i := 34) rfl rfl, resulted _ (i := 35) rfl rfl, (at_ 36 rfl rfl).num⟩
    · exact (at_ 0 rfl rfl).num_of_lt fits
    · refine ((at_ 2 rfl rfl).num_of_lt ((classCode r.cls).isLt.trans (by decide))).trans ?_
      cases r.cls <;> rfl
    · refine ((at_ 4 rfl rfl).num_of_lt (BitVec.isLt _)).trans ?_
      cases r.cause <;> rfl
    · refine ((at_ 5 rfl rfl).num_of_lt (BitVec.isLt _)).trans ?_
      unfold recordFlags
      cases r.late <;> cases r.referenceLost <;> cases r.incomplete <;> rfl
    · refine ((at_ 11 rfl rfl).num_of_lt (BitVec.isLt _)).trans ?_
      cases r.hold with
      | none => rfl
      | unavailable => rfl
      | hold n => exact Nat.mod_eq_of_lt (n.isLt.trans (by decide))
  · intro l kinds counters zeros
    have front {i k n : Nat} (h : (noticeFront r)[i]? = some (k, n)) {off : Nat}
        (place : (([1, 1, 1, 5] : List Nat).take i).sum = off) : Stands l off (be k n) := by
      have := (noticeBytes_front r).trans (Stands.spell h)
      rw [Nat.zero_add] at this
      exact place ▸ this
    have kind : num l 0 1 = noticeCode r.notice.kind := (front (i := 0) rfl rfl).num_of_lt (noticeCode_lt _)
    refine ⟨noticeBytes_length r, ?_, ?_, (front (i := 2) rfl rfl).num_of_lt (flag _), (front (i := 3) rfl rfl).num, ?_,
      (noticeBytes_dropped r).num⟩
    · rw [kind]
      exact allNoticeKinds_getElem? _
    · refine ((front (i := 1) rfl rfl).num_of_lt (BitVec.isLt _)).trans ?_
      cases r.notice.svc with
      | none => rfl
      | some i => exact Nat.mod_eq_of_lt (i.isLt.trans (by decide))
    · have whole : Stands l 8 (spell (detailParts r.notice.detail) ++ be (12 - detailSize r.notice.detail) 0) := noticeBytes_detail r
      generalize r.notice.detail = d at whole
      have field (i : Nat) {k n : Nat} (h : (detailParts d)[i]? = some (k, n)) {off : Nat}
          (place : 8 + (((detailParts d).map Prod.fst).take i).sum = off) : Stands l off (be k n) := by
        have := (whole.trans (.left _ _)).trans (Stands.spell h)
        exact place ▸ this
      have pad : zeros (8 + detailSize d) := by
        have := whole.trans (.right _ _)
        rw [spell_length, ← detailSize] at this
        have fits := detailSize_le d
        show ofBe ((l.drop _).take _) = 0
        rw [show 20 - (8 + detailSize d) = 12 - detailSize d by omega]
        exact this.num.trans (Nat.zero_mod _)
      cases d with
      | nothing => exact pad
      | sequence n => exact ⟨(field 0 rfl rfl).num, pad⟩
      | gap id first => exact ⟨⟨(field 0 rfl rfl).num_of_lt (flag _), (field 1 rfl rfl).num⟩, (field 2 rfl rfl).num, pad⟩
      | captionStream lane stream => exact ⟨(field 0 rfl rfl).num, (field 1 rfl rfl).num, pad⟩
      | audioLane lane => exact ⟨(field 0 rfl rfl).num, pad⟩
      | segment id => exact ⟨⟨(field 0 rfl rfl).num_of_lt (flag _), (field 1 rfl rfl).num⟩, pad⟩
      | priority p => exact ⟨(field 0 rfl rfl).num, pad⟩
      | lostChunk slot start => exact ⟨(field 0 rfl rfl).num, (field 1 rfl rfl).num, pad⟩
      | backlog b t => exact ⟨(field 0 rfl rfl).num, (field 1 rfl rfl).num, pad⟩
      | take slot token => exact ⟨(field 0 rfl rfl).num, (field 1 rfl rfl).num, pad⟩
      | counter c =>
        cases c with
        | service k i =>
          have kind : num l 8 1 = (svcCounterKind k).val :=
            (field 0 rfl rfl).num_of_lt ((svcCounterKind k).isLt.trans (by decide))
          refine ⟨?_, ?_, pad⟩
          · rw [kind]
            cases k <;> rfl
          · refine ((field 1 rfl rfl).num_of_lt (BitVec.isLt _)).trans (Nat.mod_eq_of_lt (i.isLt.trans (by decide)))
        | archiveTimeouts => exact ⟨(field 0 rfl rfl).num, (field 1 rfl rfl).num, pad⟩
        | logRecordsLost => exact ⟨(field 0 rfl rfl).num, (field 1 rfl rfl).num, pad⟩
        | framesDiscarded p =>
          exact ⟨(field 0 rfl rfl).num, ((field 1 rfl rfl).num_of_lt (BitVec.isLt _)).trans
            (Nat.mod_eq_of_lt (p.isLt.trans (by decide))), pad⟩
  · intro payload status two four six yes
    have two_eq (n : Nat) : be 2 n = two n := be_two n
    have four_eq (n : Nat) : be 4 n = four n := by rw [be_four, two_eq, two_eq]
    have six_eq (n : Nat) : be 6 n = six n := by rw [be_six, two_eq, four_eq]
    have status_eq : statusCode r.status = status := by
      simp only [status]
      cases r.status <;> rfl
    refine ⟨?_, rfl, fun b => rfl, fun b => rfl, fun i => ?_, six_eq, fun x a b => ?_, fun a b c => ?_, fun a b => ?_,
      fun n t a b c => ?_, fun a b c t => ?_, fun x => rfl, fun x => ⟨match x.kind with
        | none => 255
        | some k => noticeCode k, ?_, ?_, ?_⟩⟩
    · rw [responseFrame, status_eq, two_eq]
    · simp [answerBytes, be]
    · rw [answerBytes, six_eq, six_eq]
    · rw [answerBytes, six_eq, six_eq, six_eq]
    · rw [answerBytes, six_eq, six_eq]
    · simp only [answerBytes, four_eq]
    · simp only [answerBytes, four_eq]
    · cases x.kind with
      | none => decide
      | some k => exact noticeCode_lt k
    · cases x.kind with
      | none => rfl
      | some k => exact fun n same => same ▸ noticeBytes_head n
    · exact routeBytes_eq x
  · have fits : y.Fits := ⟨audio, frames, packets, segments, bytes⟩
    obtain ⟨header, audioAt, framesAt, packetsAt⟩ := fits.payload_parts
    obtain ⟨frontAt, segmentsAt, middleAt, entriesAt, zerosAt⟩ := fits.header_parts
    intro k l count
    have front (i : Nat) {k n : Nat} (h : (headerFront y)[i]? = some (k, n)) {off : Nat}
        (place : (([1, 1, 1, 1, 1, 5, 5, 5, 4, 4, 4] : List Nat).take i).sum = off) : Stands l off (be k n) := by
      have := (header.trans frontAt).trans (Stands.spell h)
      rw [Nat.zero_add] at this
      exact place ▸ this
    have middle (i : Nat) {k n : Nat} (h : (headerMiddle y)[i]? = some (k, n)) {off : Nat}
        (place : 72 + (([1, 2, 2, 4, 4, 4] : List Nat).take i).sum = off) : Stands l off (be k n) :=
      place ▸ (header.trans middleAt).trans (Stands.spell h)
    refine ⟨fits.payload_length, (front 0 rfl rfl).num_of_lt (y.svc.isLt.trans (by decide)), ?_, ?_,
      (front 3 rfl rfl).num_of_lt (Nat.lt_of_le_of_lt segments (by decide)), ?_, (front 5 rfl rfl).num, (front 6 rfl rfl).num,
      (front 7 rfl rfl).num, (front 8 rfl rfl).num, (front 9 rfl rfl).num_of_lt (y.chunk.keep.isLt.trans (by decide)),
      (front 10 rfl rfl).num_of_lt (y.chunk.absent.isLt.trans (by decide)), fun j inside => ?_,
      (middle 0 rfl rfl).num_of_lt (Nat.lt_of_le_of_lt frames (by decide)),
      (middle 1 rfl rfl).num_of_lt (Nat.lt_of_le_of_lt packets (by decide)),
      (middle 2 rfl rfl).num_of_lt (Nat.lt_of_le_of_lt (Nat.min_le_left ..) (by decide)), (middle 3 rfl rfl).num_of_lt (by decide),
      (middle 4 rfl rfl).num_of_lt (by omega), (middle 5 rfl rfl).num_of_lt (by omega), fun j inside => ?_, fun j inside => ?_,
      fun o j inside => ?_, fun j f at_ => ?_, fun j q at_ => ?_⟩
    · refine ((front 1 rfl rfl).num_of_lt ?_).trans ?_
      · cases y.keepUsed <;> decide
      · cases y.keepUsed <;> rfl
    · refine (front 2 rfl rfl).num_of_lt ?_
      cases y.cutShort <;> cases y.fillFrames <;> decide
    · refine ((front 4 rfl rfl).num_of_lt (BitVec.isLt _)).trans ?_
      cases y.chunk.more <;> rfl
    · have place := (header.trans segmentsAt).trans (Stands.padTo (fun id _ => idField_length id) inside)
      have entry : (y.chunk.segments[j]?).elim (be 5 0) idField = idField (y.chunk.segments[j]?.getD none) := by
        cases y.chunk.segments[j]? <;> rfl
      rw [entry, idField_eq, Nat.zero_add] at place
      exact ⟨place.pair.1.num_of_lt (flag _), place.pair.2.num⟩
    · have place := (header.trans entriesAt).trans (Stands.padTo (fun f _ => frameEntry_length f) inside)
      have entry : (y.chunk.frames[j]?).elim (be 2 0) frameEntry =
          be 1 ((y.chunk.frames[j]?).elim 0 fun f => if f.offset < 10 then 0 else 1)
            ++ be 1 ((y.chunk.frames[j]?).elim 0 fun f => f.position) := by cases y.chunk.frames[j]? <;> rfl
      rw [entry, Nat.zero_add] at place
      obtain ⟨second, position⟩ := place.pair
      rw [Nat.add_right_comm] at position
      refine ⟨second.num_of_lt ?_, position.num.trans ?_⟩
      · cases y.chunk.frames[j]? with
        | none => decide
        | some f =>
          show (if f.offset < 10 then 0 else 1) < 256
          split <;> decide
      · cases y.chunk.frames[j]? <;> rfl
    · have place := (header.trans zerosAt).trans (Stands.zeros (j := j) (k := 1) inside)
      rw [Nat.zero_add] at place
      exact place.num
    · have place := fits.samples_stand o inside
      have entry : ((y.chunk.audio[o][j]?).elim (be 4 0) fun p => be 2 (signed16 p.1) ++ be 2 (signed16 p.2)) =
          be 2 ((y.chunk.audio[o][j]?).elim 0 fun p => signed16 p.1) ++ be 2 ((y.chunk.audio[o][j]?).elim 0 fun p => signed16 p.2) := by
        cases y.chunk.audio[o][j]? <;> rfl
      rw [entry] at place
      refine ⟨place.pair.1.num_of_lt ?_, place.pair.2.num_of_lt ?_⟩
      · cases y.chunk.audio[o][j]? with
        | none => decide
        | some p => exact signed16_lt _
      · cases y.chunk.audio[o][j]? with
        | none => decide
        | some p => exact signed16_lt _
    · have place := (framesAt.trans (Stands.flatMap bytes at_)).bytes
      rwa [bytes f (List.mem_of_getElem? at_)] at place
    · intro a
      have entry : Stands l a (packetEntry q) := fits.packet_stands at_
      have field (i : Nat) {k n : Nat} (h : (packetFront q)[i]? = some (k, n)) {off : Nat}
          (place : a + (([1, 1, 1, 1, 2] : List Nat).take i).sum = off) : Stands l off (be k n) := by
        have := (entry.trans (packetEntry_front q)).trans (Stands.spell h)
        exact place ▸ this
      refine ⟨(field 0 rfl rfl).num, (field 1 rfl rfl).num, (field 2 rfl rfl).num, (field 3 rfl rfl).num, (field 4 rfl rfl).num,
        fun n inside => ?_⟩
      have char := entry.trans (packetEntry_char q inside)
      rw [← Nat.add_assoc] at char
      cases here : q.packet.chars[n]? with
      | none =>
        rw [here] at char
        exact char.num
      | some b =>
        rw [here] at char
        exact char.byte

end Sys2Proof.Machine
end

section
/-!
The gated integration in the terms of the manual (O27): bins as levels and weights.
-/

namespace Sys2Proof.Machine

/-! ### Bins as levels (R58, R59) -/

/-- R58: the centre of a bin, in LUFS. -/
noncomputable def binCentre (b : Nat) : ℝ := -70 + 1 / 2 * b + 1 / 4

/-- R59: the ratio of the weights of neighbouring bins. -/
noncomputable def binRatio : ℝ := (10 : ℝ) ^ (1 / 20 : ℝ)

/-- R59: the weight of bin 0. -/
noncomputable def firstWeight : ℝ := (10 : ℝ) ^ (-(279 / 40) : ℝ)

theorem binRatio_pos : 0 < binRatio := Real.rpow_pos_of_pos (by norm_num) _

theorem firstWeight_pos : 0 < firstWeight := Real.rpow_pos_of_pos (by norm_num) _

theorem binRatio_pow : binRatio ^ 20 = 10 := by
  rw [binRatio, ← Real.rpow_natCast, ← Real.rpow_mul (by norm_num)]
  norm_num

theorem binWeight_eq (b : Nat) : (10 : ℝ) ^ (binCentre b / 10) = firstWeight * binRatio ^ b := by
  rw [firstWeight, binRatio, ← Real.rpow_natCast, ← Real.rpow_mul (by norm_num), ← Real.rpow_add (by norm_num), binCentre]
  congr 1
  ring

theorem logb_firstWeight_mul {x : ℝ} (h : 0 < x) : Real.logb 10 (firstWeight * x) = -(279 / 40) + Real.logb 10 x := by
  rw [Real.logb_mul firstWeight_pos.ne' h.ne', firstWeight, Real.logb_rpow (by norm_num) (by norm_num)]

theorem logb_binRatio_pow (b : Nat) : Real.logb 10 (binRatio ^ b) = b / 20 := by
  rw [Real.logb_pow, binRatio, Real.logb_rpow (by norm_num) (by norm_num)]
  ring

/-! ### Sums over a histogram -/

/-- The counts `v` of 150 bins, as a list. -/
structure Counts150 (l : List Nat) (v : Fin 150 → Nat) : Prop where
  length : l.length = 150
  get    : ∀ b : Fin 150, l.getD b.val 0 = v b

namespace Counts150

variable {l : List Nat} {v : Fin 150 → Nat} (h : Counts150 l v)
include h

theorem sum_eq {M : Type} [AddCommMonoid M] (f : Nat → Nat → M) (zero : ∀ b, f b 0 = 0) :
    ∑ b ∈ Finset.range 160, f b (l.getD b 0) = ∑ b : Fin 150, f b.val (v b) := by
  have inside : ∑ b : Fin 150, f b.val (v b) = ∑ b ∈ Finset.range 150, f b (l.getD b 0) := by
    rw [Finset.sum_range]
    exact Finset.sum_congr rfl fun b _ => by rw [h.get]
  rw [inside]
  refine (Finset.sum_subset (by simp) fun b _ beyond => ?_).symm
  rw [List.getD_eq_default _ _ (by rw [h.length]; simpa using beyond), zero]

theorem totalCount_eq : totalCount l = ∑ b : Fin 150, v b := by
  rw [totalCount, list_sum_eq_range l 160 (by rw [h.length]; decide)]
  exact h.sum_eq (fun _ n => n) fun _ => rfl

theorem weight_eq (q : ℝ) : ∑ b ∈ Finset.range 160, (l.getD b 0 : ℝ) * q ^ b = ∑ b : Fin 150, (v b : ℝ) * q ^ b.val :=
  h.sum_eq (fun b n => (n : ℝ) * q ^ b) fun b => by simp

theorem coordValue_eq : coordValue binRatio (coordinates l) = ∑ b : Fin 150, (v b : ℝ) * binRatio ^ b.val := by
  rw [coordinates_value binRatio_pow, h.weight_eq]

end Counts150

/-- The sum of the weights of counted blocks. -/
theorem sum_binWeight {m : Nat} (v : Fin m → Nat) :
    ∑ b : Fin m, (v b : ℝ) * (10 : ℝ) ^ (binCentre b.val / 10) = firstWeight * ∑ b : Fin m, (v b : ℝ) * binRatio ^ b.val := by
  rw [Finset.mul_sum]
  exact Finset.sum_congr rfl fun b _ => by rw [binWeight_eq]; ring

theorem sum_weight_pos {m : Nat} {v : Fin m → Nat} (h : 0 < ∑ b : Fin m, v b) : 0 < ∑ b : Fin m, (v b : ℝ) * binRatio ^ b.val := by
  obtain ⟨b, _, counted⟩ := Finset.exists_ne_zero_of_sum_ne_zero h.ne'
  refine Finset.sum_pos' (fun b _ => by have := binRatio_pos; positivity) ⟨b, Finset.mem_univ b, ?_⟩
  have := binRatio_pos
  have : 0 < v b := Nat.pos_of_ne_zero counted
  positivity

/-! ### The relative gate (R60) -/

/-- R60: a bin whose centre is at or above the gate, in terms of the counts. -/
theorem gate_le_iff {n : Nat} (hn : 0 < n) {y : ℝ} (hy : 0 < y) (b : Nat) :
    10 * Real.logb 10 (firstWeight * y / n) - 10 ≤ binCentre b ↔ y ≤ 10 * n * binRatio ^ b := by
  have n_pos : (0 : ℝ) < n := Nat.cast_pos.mpr hn
  have weight_pos : 0 < binRatio ^ b := pow_pos binRatio_pos b
  have level : Real.logb 10 (10 * n * binRatio ^ b) = 1 + Real.logb 10 n + b / 20 := by
    rw [Real.logb_mul (by positivity) weight_pos.ne', Real.logb_mul (by norm_num) n_pos.ne', logb_binRatio_pow,
      Real.logb_self_eq_one (by norm_num)]
  rw [mul_div_assoc, logb_firstWeight_mul (by positivity), Real.logb_div hy.ne' n_pos.ne',
    ← Real.logb_le_logb (b := 10) (by norm_num) hy (by positivity), level, binCentre]
  constructor
  · intro h
    linarith
  · intro h
    linarith

/-- R60: some counted block lies at or above the gate. -/
theorem exists_above_gate {m : Nat} {v : Fin m → Nat} (h : 0 < ∑ b : Fin m, v b) :
    ∃ b, v b ≠ 0 ∧ ∑ c : Fin m, (v c : ℝ) * binRatio ^ c.val ≤ 10 * (∑ c : Fin m, v c : Nat) * binRatio ^ b.val := by
  by_contra none
  push Not at none
  have value_pos := sum_weight_pos h
  set value := ∑ c : Fin m, (v c : ℝ) * binRatio ^ c.val with valueIs
  have n_pos : (0 : ℝ) < (∑ c : Fin m, v c : Nat) := Nat.cast_pos.mpr h
  have each (b : Fin m) : 10 * (∑ c : Fin m, v c : Nat) * ((v b : ℝ) * binRatio ^ b.val) ≤ v b * value := by
    by_cases counted : v b = 0
    · simp [counted]
    · have := mul_le_mul_of_nonneg_left (none b counted).le (Nat.cast_nonneg (α := ℝ) (v b))
      linarith
  have all := Finset.sum_le_sum fun b (_ : b ∈ Finset.univ) => each b
  rw [← Finset.mul_sum, ← Finset.sum_mul, ← valueIs, ← Nat.cast_sum] at all
  nlinarith [mul_pos n_pos value_pos]

/-- R60: the counts of the included bins. -/
theorem gatedCounts_counts {l : List Nat} {v : Fin 150 → Nat} (h : Counts150 l v) :
    Counts150 (gatedCounts l)
      fun b => if v b ≠ 0 ∧ binIncluded (totalCount l) (coordinates l) b.val = true then v b else 0 where
  length := by simp [gatedCounts, h.length]
  get b := by
    have inside : b.val < l.length := by rw [h.length]; exact b.isLt
    have there : l[b.val] = v b := by rw [← h.get, List.getD_eq_getElem _ _ inside]
    rw [gatedCounts, List.getD_eq_getElem _ _ (by rw [List.length_mapIdx]; exact inside), List.getElem_mapIdx, there]

/-- R61: the level of the mean weight of counted blocks, in tenths. -/
noncomputable def meanLevel (v : Fin 150 → Nat) : ℝ :=
  10 * (10 * Real.logb 10 (firstWeight * (∑ b : Fin 150, (v b : ℝ) * binRatio ^ b.val) / (∑ b : Fin 150, v b : Nat)))

/-- R61: the integrated code in the terms of the manual. -/
theorem includedCode_level {l : List Nat} {v : Fin 150 → Nat} (h : Counts150 l v) (some : 0 < ∑ b : Fin 150, v b) :
    ∃ k : Int, (k = ⌊meanLevel v + 1 / 2 + 1 / 200⌋ ∨ k = ⌊meanLevel v + 1 / 2 - 1 / 200⌋) ∧ includedCode l = max (-697) k := by
  have total := h.totalCount_eq
  have rounds := includedCode_rounds binRatio_pos binRatio_pow l (by rw [h.length]; decide) (by rwa [total])
  rw [h.weight_eq, total] at rounds
  have n_pos : (0 : ℝ) < (∑ b : Fin 150, v b : Nat) := Nat.cast_pos.mpr some
  have level := logb_firstWeight_mul (div_pos (sum_weight_pos some) n_pos)
  rw [meanLevel, mul_div_assoc, level]
  have same (x : ℝ) : 10 * (10 * (-(279 / 40) + x)) = 100 * x - 1395 / 2 := by ring
  rw [same]
  exact rounds

/-- R61: no mean weight is above that of the last bin. -/
theorem mean_level_le {v : Fin 150 → Nat} (some : 0 < ∑ b : Fin 150, v b) :
    meanLevel v ≤ 95 / 2 := by
  have n_pos : (0 : ℝ) < (∑ b : Fin 150, v b : Nat) := Nat.cast_pos.mpr some
  have ratio : 1 ≤ binRatio := one_le_root binRatio_pos binRatio_pow
  have mean_le : (∑ b : Fin 150, (v b : ℝ) * binRatio ^ b.val) / (∑ b : Fin 150, v b : Nat) ≤ binRatio ^ 149 := by
    rw [div_le_iff₀ n_pos, Nat.cast_sum, Finset.mul_sum]
    refine Finset.sum_le_sum fun b _ => ?_
    rw [mul_comm]
    exact mul_le_mul_of_nonneg_right (pow_le_pow_right₀ ratio (Nat.le_of_lt_succ b.isLt)) (Nat.cast_nonneg _)
  have mean_pos := div_pos (sum_weight_pos some) n_pos
  have level := (Real.logb_le_logb (b := 10) (by norm_num) mean_pos (pow_pos binRatio_pos 149)).mpr mean_le
  rw [logb_binRatio_pow] at level
  rw [meanLevel, mul_div_assoc, logb_firstWeight_mul mean_pos]
  rw [show ((149 : ℕ) : ℝ) = 149 from rfl] at level
  linarith

/-- R61: the highest code. -/
theorem rounded_le {x : ℝ} (h : x ≤ 95 / 2) : ⌊x + 1 / 2 + 1 / 200⌋ ≤ 48 ∧ ⌊x + 1 / 2 - 1 / 200⌋ ≤ 48 := by
  constructor <;> exact Int.le_of_lt_add_one (Int.floor_lt.mpr (by norm_num; linarith))

/-- Settles O27: a bin's weight is that of bin 0 times a power of `binRatio`, so the exact arithmetic of the model is that of the
manual's logarithms. -/
theorem integratedCodesLieInRange : Obligations.IntegratedCodesLieInRange := by
  unfold Obligations.IntegratedCodesLieInRange
  intro bins _ rounds centre weight n₁ s₁ gate
  have counts : Counts150 bins.toList fun b => bins[b] :=
    ⟨by simp, fun b => by rw [List.getD_eq_getElem _ _ (by simp)]; simp⟩
  have total : totalCount bins.toList = n₁ := counts.totalCount_eq
  have value : s₁ = firstWeight * ∑ b : Fin 150, (bins[b] : ℝ) * binRatio ^ b.val := sum_binWeight fun b => bins[b]
  refine ⟨?_, fun c h => ?_⟩
  · rw [gatedIntegration, total]
    have zero : n₁ = 0 ↔ ∀ b : Fin 150, bins[b] = 0 := by
      rw [Finset.sum_eq_zero_iff]
      exact ⟨fun h b => h b (Finset.mem_univ b), fun h b _ => h b⟩
    rw [← zero]
    split
    · next none => exact iff_of_true rfl none
    · next some => exact iff_of_false nofun some
  · rw [gatedIntegration, total] at h
    split at h
    · cases h
    · next ne =>
      have some : 0 < n₁ := Nat.pos_of_ne_zero ne
      obtain rfl := Option.some.inj h
      have y_pos := sum_weight_pos some
      have above (b : Fin 150) : gate ≤ centre b ↔ binIncluded (totalCount bins.toList) (coordinates bins.toList) b.val = true := by
        rw [binIncluded_iff binRatio_pos binRatio_pow _ _ (coordinates_length _), counts.coordValue_eq, total,
          ← gate_le_iff some y_pos b.val, ← value]
        rfl
      have gated := gatedCounts_counts counts
      have kept_some : 0 < ∑ b : Fin 150,
          if bins[b] ≠ 0 ∧ binIncluded (totalCount bins.toList) (coordinates bins.toList) b.val = true then bins[b] else 0 := by
        obtain ⟨b, counted, high⟩ := exists_above_gate some
        have included : binIncluded (totalCount bins.toList) (coordinates bins.toList) b.val = true := by
          rw [binIncluded_iff binRatio_pos binRatio_pow _ _ (coordinates_length _), counts.coordValue_eq, total]
          exact high
        refine Nat.pos_of_ne_zero fun zero => ?_
        have := Finset.sum_eq_zero_iff.mp zero b (Finset.mem_univ b)
        rw [if_pos ⟨counted, included⟩] at this
        exact counted this
      obtain ⟨k, round, code⟩ := includedCode_level gated kept_some
      have high := mean_level_le kept_some
      rw [code]
      refine ⟨le_max_left .., max_le (by decide) ?_, fun kept at_or_above below => ?_⟩
      · obtain ⟨up, down⟩ := rounded_le high
        exact round.elim (fun e => e ▸ up) fun e => e ▸ down
      · intro n₂ s₂
        have same : kept = fun b =>
            if bins[b] ≠ 0 ∧ binIncluded (totalCount bins.toList) (coordinates bins.toList) b.val = true then bins[b] else 0 := by
          funext b
          by_cases high : gate ≤ centre b
          · rw [at_or_above b high]
            have included := (above b).mp high
            by_cases zero : bins[b] = 0
            · rw [if_neg fun h => h.1 zero, zero]
            · rw [if_pos ⟨zero, included⟩]
          · rw [below b (not_le.mp high), if_neg fun h => high ((above b).mpr h.2)]
        refine ⟨k, ?_, rfl⟩
        have mean : 10 * (10 * Real.logb 10 (s₂ / n₂)) = meanLevel kept :=
          congrArg (fun s : ℝ => 10 * (10 * Real.logb 10 (s / n₂))) (sum_binWeight kept)
        rw [mean, same]
        exact round

end Sys2Proof.Machine
end

section
/-!
The completion of an MI at the meter (O26): filters, ring, block, accumulators, survey and MI result.
-/

namespace Sys2Proof.Machine

/-! ### The ring (R46) -/

namespace MeterSvc

variable (x : MeterSvc)

theorem passedAt_eq (m : Mi) : x.passedAt m = x.passed ++ (if x.nextMi < m then [⟨x.nextMi, m⟩] else []) := by
  unfold passedAt
  split
  · rfl
  · rw [List.append_nil]

/-- R46: the ring that an MI finds: the first MI of a segment empties it. -/
def oldRing (mis : Nat) : List SubBlock := if mis = 0 then [] else x.ring

theorem ringAfter_eq (mis : Nat) (b : SubBlock) :
    x.ringAfter mis b = (x.oldRing mis).drop (if 30 ≤ (x.oldRing mis).length then 1 else 0) ++ [b] := by
  show (if 30 ≤ (x.oldRing mis).length then (x.oldRing mis).tail else x.oldRing mis) ++ [b] = _
  split
  · rw [List.drop_one]
  · rfl

theorem ringAfter_dropLast (mis : Nat) (b : SubBlock) :
    ∃ n, (x.ringAfter mis b).dropLast = (x.oldRing mis).drop n ∧ ((x.oldRing mis).length < 30 → n = 0) ∧
      ((x.oldRing mis).length = 30 → n = 1) := by
  refine ⟨_, by rw [ringAfter_eq, List.dropLast_concat], fun short => if_neg (Nat.not_le.mpr short), fun full => ?_⟩
  exact if_pos full.ge

theorem ringAfter_getLast? (mis : Nat) (b : SubBlock) : (x.ringAfter mis b).getLast? = some b := by
  rw [ringAfter_eq, List.getLast?_concat]

end MeterSvc

/-! ### The filters (R44, R45) -/

/-- R44: a sample's weighted signal and what the stages keep of it. -/
theorem EntryFilter.run_cons (f : EntryFilter) (sample : Int) (rest : List Int) :
    f.run (sample :: rest) = (((f.step sample).1.run rest).1, (f.step sample).2 ^ 2 + ((f.step sample).1.run rest).2) := by
  rw [pow_two]
  rfl

theorem shelf_output (a : StageState) (x : Rat) :
    a.output shelfCoefficients x = 153512486 / 100000000 * x - 269169619 / 100000000 * a.x1 + 119839281 / 100000000 * a.x2
      + 169065929 / 100000000 * a.y1 - 73248077 / 100000000 * a.y2 := by
  unfold StageState.output shelfCoefficients
  ring

theorem highPass_output (b : StageState) (u : Rat) :
    b.output highPassCoefficients u
      = u - 2 * b.x1 + b.x2 + 199004745 / 100000000 * b.y1 - 99007225 / 100000000 * b.y2 := by
  unfold StageState.output highPassCoefficients
  ring

theorem EntryFilter.step_eq (f : EntryFilter) (sample : Int) :
    let x : Rat := sample / 2 ^ 23
    let a := f.shelf
    let b := f.highPass
    let u : Rat := 153512486 / 100000000 * x - 269169619 / 100000000 * a.x1 + 119839281 / 100000000 * a.x2
      + 169065929 / 100000000 * a.y1 - 73248077 / 100000000 * a.y2
    let y : Rat := u - 2 * b.x1 + b.x2 + 199004745 / 100000000 * b.y1 - 99007225 / 100000000 * b.y2
    f.step sample = (⟨⟨x, a.x1, u, a.y1⟩, ⟨u, b.x1, y, b.y1⟩⟩, y) := by
  have scale : (2 : Rat) ^ 23 = 8388608 := by norm_num
  intro x a b u y
  simp only [EntryFilter.step, StageState.after, shelf_output, highPass_output, x, a, b, u, y, scale]

/-- R44, R46: the entries of the channel list, each by its own filter and its own samples. -/
theorem filterFrames_eq (frames : List (List Int)) (k : Nat) (es : List ChannelEntry) (fs : List EntryFilter) :
    filterFrames frames k es fs =
      (es.mapIdx fun i _ => ((fs.getD i .zero).run (frames.map fun f => f.getD (k + i) 0)).1,
        (es.mapIdx fun i e => e.weight.value * ((fs.getD i .zero).run (frames.map fun f => f.getD (k + i) 0)).2).sum) := by
  induction es generalizing k fs with
  | nil => rfl
  | cons e es ih =>
    have head : fs.head?.getD .zero = fs.getD 0 .zero := by cases fs <;> rfl
    have tail (i : Nat) : fs.tail.getD i .zero = fs.getD (i + 1) .zero := by cases fs <;> rfl
    have place (i : Nat) : k + 1 + i = k + (i + 1) := by omega
    rw [filterFrames, ih]
    simp only [List.mapIdx_cons, List.sum_cons, head, tail, place, Nat.add_zero]

/-! ### Codes and magnitudes (R48, R50, R51) -/

theorem foldl_max_spec (l : List Nat) (a : Nat) :
    a ≤ l.foldl max a ∧ (∀ v ∈ l, v ≤ l.foldl max a) ∧ (l.foldl max a = a ∨ l.foldl max a ∈ l) := by
  induction l generalizing a with
  | nil => exact ⟨Nat.le_refl a, fun v mem => absurd mem List.not_mem_nil, .inl rfl⟩
  | cons b l ih =>
    obtain ⟨low, all, found⟩ := ih (max a b)
    refine ⟨(Nat.le_max_left a b).trans low, fun v mem => ?_, ?_⟩
    · rcases List.mem_cons.mp mem with rfl | mem
      · exact (Nat.le_max_right a v).trans low
      · exact all v mem
    · rcases found with same | mem
      · rcases Nat.le_total b a with less | more
        · exact .inl (same.trans (Nat.max_eq_left less))
        · exact .inr (List.mem_cons.mpr (.inl (same.trans (Nat.max_eq_right more))))
      · exact .inr (.tail _ mem)

theorem largestMagnitude_spec (frames : List (List Int)) :
    (∀ f ∈ frames, ∀ v ∈ f, v.natAbs ≤ largestMagnitude frames) ∧
    (largestMagnitude frames = 0 ∨ ∃ f ∈ frames, ∃ v ∈ f, v.natAbs = largestMagnitude frames) := by
  obtain ⟨_, all, found⟩ := foldl_max_spec (frames.flatMap fun f => f.map Int.natAbs) 0
  refine ⟨fun f hf v hv => all _ (List.mem_flatMap.mpr ⟨f, hf, List.mem_map.mpr ⟨v, hv, rfl⟩⟩), found.imp id fun mem => ?_⟩
  obtain ⟨f, hf, mem⟩ := List.mem_flatMap.mp mem
  obtain ⟨v, hv, same⟩ := List.mem_map.mp mem
  exact ⟨f, hf, v, hv, same⟩

/-! ### The block of an MI (R47 to R50) -/

/-- R48: the mean of energies none of which is absent. -/
def meanOf (l : List SubBlock) : Rat := (l.map fun b => b.energy.getD 0).sum / l.length

theorem meanEnergy_of_absent {l : List SubBlock} (h : ∃ b ∈ l, b.energy = none) : meanEnergy l = none := by
  obtain ⟨b, mem, absent⟩ := h
  exact if_pos (List.any_eq_true.mpr ⟨b, mem, by rw [absent]; rfl⟩)

theorem meanEnergy_of_present {l : List SubBlock} (h : ∀ b ∈ l, b.energy ≠ none) : meanEnergy l = some (meanOf l) := by
  refine if_neg fun any => ?_
  obtain ⟨b, mem, absent⟩ := List.any_eq_true.mp any
  exact h b mem (Option.isNone_iff_eq_none.mp absent)

section
variable {d : Nat} {ring : List SubBlock}

theorem shortTermOf_eq_none (h : d < 30 ∨ ∃ b ∈ ring, b.energy = none) : shortTermOf d ring = none := by
  rw [shortTermOf]
  split
  · rfl
  · next enough => rw [meanEnergy_of_absent (h.resolve_left enough)]

theorem shortTermOf_of_present (enough : 30 ≤ d) (h : ∀ b ∈ ring, b.energy ≠ none) :
    shortTermOf d ring = (loudnessCode (meanOf ring)).map (max (-999)) := by
  rw [shortTermOf, ringPlaces, if_neg (Nat.not_lt.mpr enough), meanEnergy_of_present h]

theorem blockOf_first (h : d ≤ 3) : blockOf d ring = .noPosition := if_pos (Nat.lt_succ_of_le h)

variable (position : 4 ≤ d)
include position

theorem blockOf_absent (h : ∃ b ∈ ring.drop (ring.length - 4), b.energy = none) : blockOf d ring = .excluded := by
  rw [blockOf, if_neg (Nat.not_lt.mpr position), meanEnergy_of_absent h]

theorem blockOf_below (h : ∀ b ∈ ring.drop (ring.length - 4), b.energy ≠ none)
    (low : ∀ k, loudnessCode (meanOf (ring.drop (ring.length - 4))) = some k → k < -700) : blockOf d ring = .below := by
  rw [blockOf, if_neg (Nat.not_lt.mpr position), meanEnergy_of_present h]
  dsimp only
  split
  · rfl
  · next k code => exact if_pos (low k code)

theorem blockOf_code (h : ∀ b ∈ ring.drop (ring.length - 4), b.energy ≠ none) {k : Int}
    (code : loudnessCode (meanOf (ring.drop (ring.length - 4))) = some k) (high : -700 ≤ k) : blockOf d ring = .binned k := by
  rw [blockOf, if_neg (Nat.not_lt.mpr position), meanEnergy_of_present h]
  dsimp only
  rw [code]
  exact if_neg (Int.not_lt.mpr high)

end

/-- R49: the bin of a code. -/
theorem binOfCode_val {k : Int} (h : -700 ≤ k) : ((binOfCode k).val : Int) = min 149 ((k + 700) / 5) := by
  unfold binOfCode
  split
  · next inside =>
    dsimp only
    omega
  · next beyond =>
    dsimp only
    omega

/-! ### The survey (R66 to R68) -/

theorem Survey.counts_iff (v : Survey) (cls : SegClass) :
    v.counts cls = true ↔ v.state = .active ∧ v.classes.getLsbD (classCode cls).val = true := by
  rw [Survey.counts, Bool.and_eq_true, beq_iff_eq]

theorem Survey.offerBelow_of_counts {v : Survey} {cls : SegClass} (h : v.counts cls = true) :
    v.offerBelow cls = { v with
      belowGate := min (2 ^ 32 - 1) (v.belowGate + 1)
      saturated := v.saturated || decide (min (2 ^ 32 - 1) (v.belowGate + 1) = 2 ^ 32 - 1) } := by
  rw [Survey.offerBelow, if_pos h]
  rfl

theorem Survey.offerBin_of_counts {v : Survey} {cls : SegClass} (h : v.counts cls = true) (b : Fin 150) :
    v.offerBin cls b = { v with
      bins := v.bins.set b (min (2 ^ 32 - 1) (v.bins[b] + 1))
      saturated := v.saturated || decide (min (2 ^ 32 - 1) (v.bins[b] + 1) = 2 ^ 32 - 1) } := by
  rw [Survey.offerBin, if_pos h]
  rfl

/-! ### The completion (R42) -/

theorem maxCode_eq (old : Option Int) (c : Int) : maxCode old c = some (max (old.getD c) c) := by
  cases old with
  | none => exact congrArg some (max_self c).symm
  | some o => rfl

/-- R42: what a completion gives, by its block. -/
theorem MeterSvc.completeMi_of_block {x : MeterSvc} {i : Svc} {h : HeldMi} {j : Judgment} {g : MeterSegment} {b : Block}
    (block : blockOf (g.mis + 1) (x.completeMi i h j g).1.ring = b) :
    let c := x.completeMi i h j g
    c.1.lastBlock = b.result ∧ c.2 = b.increments i ++ [.miResult i (b.miResult g.inst h.mi x.record.speechFloor)] ∧
    c.1.survey = x.survey.offer g.cls b ∧
    c.1.segments = x.segments.map fun e =>
      if e.inst = g.inst then
        { g.addBlock b with
          mis := g.mis + 1, absentMis := if j = .absent then g.absentMis + 1 else g.absentMis
          maxShortTerm := match c.1.lastShort with
            | none => g.maxShortTerm
            | some k => some (max (g.maxShortTerm.getD k) k)
          maxSample := if j = .absent then g.maxSample else max g.maxSample (largestMagnitude h.frames) }
      else e := by
  subst block
  refine ⟨rfl, rfl, rfl, ?_⟩
  simp only [← maxCode_eq] <;> rfl

/-- Settles O26: the ring, the filters and the codes by their own lemmas, and the completion by the block that it gives. -/
theorem completedMiJoinsRingAndGivesOneBlock : Obligations.CompletedMiJoinsRingAndGivesOneBlock := by
  unfold Obligations.CompletedMiJoinsRingAndGivesOneBlock
  refine ⟨fun x i h j g => ?_, ⟨rfl, rfl, fun f => rfl, fun f sample rest => ?_⟩, ?_, fun x i h j g => ?_⟩
  · intro c old next filters signal run weighted
    have nextIs : x.nextMi = next := x.nextMi_eq
    refine ⟨?_, fun short => ⟨MeterSvc.length_ringAfter short .., MeterSvc.ringAfter_dropLast .., ?_, fun n present => ?_⟩⟩
    · rw [← nextIs]
      exact x.passedAt_eq h.mi
    · rintro rfl
      exact ⟨MeterSvc.ringAfter_getLast? .., rfl, rfl⟩
    · subst present
      have zero : filters = if x.prevAbsent then x.zeroFilters else x.filters := rfl
      have frames := filterFrames_eq h.frames 0 x.record.channels filters
      simp only [Nat.zero_add] at frames
      refine ⟨?_, rfl, ?_⟩
      · refine (MeterSvc.ringAfter_getLast? ..).trans ?_
        simp only [MeterSvc.subBlock, ← zero, frames]
        rfl
      · show (x.subBlock h (.present n)).1 = _
        simp only [MeterSvc.subBlock, ← zero, frames]
        rfl
  · intro u a b v y r
    have step := f.step_eq sample
    rw [EntryFilter.run_cons, step]
  · intro rounds
    refine ⟨fun e low => if_pos low, fun e pos => ⟨_, loudnessCode_pos pos, codeOf_rounds _ _⟩, rfl,
      fun m ne => ⟨_, peakCode_pos ne, codeOf_rounds _ _⟩, largestMagnitude_spec⟩
  · intro c d last4 mean base v classNo counts more result becomes
    have classIs : (classCode g.cls).val = classNo := by
      simp only [classNo]
      cases g.cls <;> rfl
    have countsIs : v.counts g.cls = true ↔ counts := by
      rw [Survey.counts_iff, classIs]
    refine ⟨?_, fun none => shortTermOf_eq_none none, fun enough present => shortTermOf_of_present enough present, fun first => ?_,
      fun position absent => ?_, fun position present low => ?_, fun k position present code high => ?_⟩
    · have input : (fun e : HeldMi => e.mi != h.mi) = fun e => decide (e.mi ≠ h.mi) := by
        funext e
        simp [bne, beq_eq_decide]
      rw [← input]
      rfl
    · exact MeterSvc.completeMi_of_block (blockOf_first first)
    · exact MeterSvc.completeMi_of_block (blockOf_absent position absent)
    · refine ⟨v.offerBelow g.cls, fun counted => Survey.offerBelow_of_counts (countsIs.mpr counted), fun other => ?_,
        MeterSvc.completeMi_of_block (blockOf_below position present low)⟩
      exact if_neg (other ∘ countsIs.mp)
    · refine ⟨binOfCode k, v.offerBin g.cls (binOfCode k), binOfCode_val high,
        fun counted => Survey.offerBin_of_counts (countsIs.mpr counted) _, fun other => ?_, ?_⟩
      · exact if_neg (other ∘ countsIs.mp)
      · obtain ⟨last, msgs, survey, segments⟩ := MeterSvc.completeMi_of_block (x := x) (i := i) (h := h) (j := j) (g := g)
          (blockOf_code position present code high)
        simp only [MeterSegment.addBlock, maxCode_eq] at segments
        exact ⟨last, msgs, survey, segments⟩

end Sys2Proof.Machine
end
